-- ==== Sys2Proof/Word.lean ====
section
/-! DEFINITION. The words of the machine: 32-bit data and addresses, halfwords and bytes (spec/00_scope.md R6, R13),
and the fields an instruction names (R11). -/

namespace Sys2Proof

/-- A 32-bit word: a general register, an address, a datum (R13, R20, R26, R60). -/
abbrev Word := BitVec 32

/-- A 16-bit halfword: an instruction of 16-bit mode (R6, R90). -/
abbrev Half := BitVec 16

/-- A byte (R6). -/
abbrev Byte := BitVec 8

/-- The number of a general register in a 32-bit-mode operand, or of a coprocessor register: 0...31 (R11). -/
abbrev Reg := BitVec 5

/-- The number of a general register in a 16-bit-mode operand: 0...7 (R11, R23). -/
abbrev RegS := BitVec 3

/-- The number of a condition register: 0...7 (R11, R28). -/
abbrev CReg := BitVec 3

/-- The number of a coprocessor: 0...3 (R300). -/
abbrev CopNum := BitVec 2

end Sys2Proof
end

