-- ==== Sys2Proof/Config.lean ====
section
/-! DEFINITION. What an implementation fixes and the source leaves open (spec/00_scope.md R5): constants with no body,
so that a claim holds for every value. The one constant with a value is RESET_PC (log entry 10). Parameters that
come with a launch image (DValid, the attached coprocessors, UNIFIED_MEMORY) are fields of State, `platform`. -/

namespace Sys2Proof

/-- The three things the core can do towards a coprocessor (R300). -/
inductive CopOp where
  /-- `CopExec(n, w)`: `cop` sends the 24-bit instruction word `w` to coprocessor `n`. -/
  | exec (n : CopNum) (w : BitVec 24)
  /-- `CopWrite(n, r, v)`: `movdtc` writes `v` to register `r` of coprocessor `n`. -/
  | write (n : CopNum) (r : Reg) (v : Word)
  /-- `CopRead(n, r)`: `movdfc` reads register `r` of coprocessor `n`. -/
  | read (n : CopNum) (r : Reg)
  deriving DecidableEq, Repr

namespace Config

/-- `SYS_ADDR` without its two low bits, which are zero because it is entered in 32-bit mode (R71, R280). Open. -/
opaque sysAddrWord : BitVec 30

/-- `SYS_ADDR`, the source's `sys_addr_c`: entry address of `scall`, a multiple of 4 (R74, R280, log entry 12). -/
def sysAddr : Word := (sysAddrWord ++ 0#2).setWidth 32

/-- `EXCEP_ADDR` without its two low bits (R71, R286). Open. -/
opaque excepAddrWord : BitVec 30

/-- `EXCEP_ADDR`, the source's `excep_addr_c`: entry address of `trap` and of the exceptions, a multiple of 4
(R74, R286, R324, log entry 12). -/
def excepAddr : Word := (excepAddrWord ++ 0#2).setWidth 32

/-- `RESET_PC`: open in the spec (R50), a multiple of 4.
DESIGN CHOICE 0x100, where the rows of the spec's test vectors start (log entry 10): unsafe. -/
def resetPc : Word := 0x100#32

/-- `SUB_CARRY_SENSE`: true for `borrow`, false for `not_borrow` (R140, log entry 13). Open. -/
opaque subCarryIsBorrow : Bool

/-- The entries of the hardware stack beyond the first. Open. -/
opaque hwStackSpare : Nat

/-- `HWSTACK_DEPTH`, the capacity of the hardware stack (R34). DEDUCED: it has at least one entry, since `reti`
loads from it (log entry 14). -/
def hwStackDepth : Nat := hwStackSpare + 1

/-- `INT_ADDR(s)` of interrupt source `s` without its two low bits (R71, R330). Open. -/
opaque intAddrWord : Nat → BitVec 30

/-- `INT_ADDR(s)`: handler entry address of interrupt source `s`, a multiple of 4 (R330, log entry 16). -/
def intAddr (s : Nat) : Word := (intAddrWord s ++ 0#2).setWidth 32

/-- `IntPriority`: the rank of an interrupt source, the lowest rank served first (R330, log entry 16). Open.
Sources of equal rank are ordered by number, so the order is total whatever the ranks are. -/
opaque intRank : Nat → Nat

/-- `EXBF_OVERRUN(v, len, pos)`: what a bit-field extract gives when `pos + len > 32` (R180). A FREE VALUE: open in
the spec, and no value of it is assumed (log entry 15). -/
opaque exbfOverrun : Word → BitVec 6 → BitVec 5 → Word

/-- What `CopRead(n, r)` returns after the operations listed (oldest first) have been issued to the coprocessors.
A FREE VALUE: `draw 32-bit` in the spec (R300). It is a function of everything the agents have been sent, each
earlier read included, so every read draws anew (log entry 17). -/
opaque copRead : List CopOp → CopNum → Reg → Word

end Config

end Sys2Proof
end

