-- ==== Sys2Proof/Syntax.lean ====
section
/-! DEFINITION. The instructions of COFFEE RISC 1, whole: one constructor of `Instr` per row of
spec/opcode_table.json. A mnemonic has up to three rows (R91): its 32-bit unconditional form (`add`), its 32-bit
conditional form (`addCond`, written `(cond, creg) add …`) and its 16-bit form (`addShort`). Operands stand in the
order of the spec's syntax lines (R131); immediates keep the width of their field (R93). Beside it, what the spec says
of instructions as syntax: the length mode of each form (R90), its condition prefix (R16, R232) and its part in the
branch-slot discipline (R231). -/

namespace Sys2Proof

/-- The instruction-length modes, the values of PSR.IL (R30, R90). -/
inductive ILen where
  /-- 16-bit mode: instructions of one halfword. -/
  | il16
  /-- 32-bit mode: instructions of one 32-bit word. -/
  | il32
  deriving DecidableEq, Repr

/-- The conditions of a `(cond, creg)` prefix or of a branch (R230). -/
inductive Cond where
  /-- carry -/
  | c
  /-- equal or greater than -/
  | egt
  /-- equal or less than -/
  | elt
  /-- equal -/
  | eq
  /-- greater than -/
  | gt
  /-- less than -/
  | lt
  /-- not equal -/
  | ne
  deriving DecidableEq, Repr

/-- The part an instruction has in the branch-slot discipline of R231 and R234. -/
inductive SlotRole where
  /-- Has no slot; may stand in the slot of a branch or jump. -/
  | plain
  /-- `nop`: may stand in any slot. -/
  | filler
  /-- Slot-bearing: the next instruction is its slot, and it may not stand in one itself. -/
  | bearing
  deriving DecidableEq, Repr

/-- The instructions, one constructor per row of spec/opcode_table.json. -/
inductive Instr where
  /-- `add dreg, sreg1, sreg2`: 32-bit form, format R3 (R141). -/
  | add (dreg sreg1 sreg2 : Reg)
  /-- `(cond, creg) add dreg, sreg1, sreg2`: 32-bit conditional form, format R3c (R141). -/
  | addCond (cond : Cond) (creg : CReg) (dreg sreg1 sreg2 : Reg)
  /-- `add dr, sr`: 16-bit form, format r2 (R141). -/
  | addShort (dr sr : RegS)
  /-- `addi dreg, sreg1, imm`: 32-bit form, format I (R142). -/
  | addi (dreg sreg1 : Reg) (imm : BitVec 15)
  /-- `(cond, creg) addi dreg, sreg1, imm`: 32-bit conditional form, format Ic (R142). -/
  | addiCond (cond : Cond) (creg : CReg) (dreg sreg1 : Reg) (imm : BitVec 9)
  /-- `addi dr, imm`: 16-bit form, format i7 (R142). -/
  | addiShort (dr : RegS) (imm : BitVec 7)
  /-- `addiu dreg, sreg1, imm`: 32-bit form, format I (R143). -/
  | addiu (dreg sreg1 : Reg) (imm : BitVec 15)
  /-- `(cond, creg) addiu dreg, sreg1, imm`: 32-bit conditional form, format Ic (R143). -/
  | addiuCond (cond : Cond) (creg : CReg) (dreg sreg1 : Reg) (imm : BitVec 9)
  /-- `addiu dr, imm`: 16-bit form, format i7 (R143). -/
  | addiuShort (dr : RegS) (imm : BitVec 7)
  /-- `addu dreg, sreg1, sreg2`: 32-bit form, format R3 (R144). -/
  | addu (dreg sreg1 sreg2 : Reg)
  /-- `(cond, creg) addu dreg, sreg1, sreg2`: 32-bit conditional form, format R3c (R144). -/
  | adduCond (cond : Cond) (creg : CReg) (dreg sreg1 sreg2 : Reg)
  /-- `addu dr, sr`: 16-bit form, format r2 (R144). -/
  | adduShort (dr sr : RegS)
  /-- `and dreg, sreg1, sreg2`: 32-bit form, format R3 (R160). -/
  | and (dreg sreg1 sreg2 : Reg)
  /-- `(cond, creg) and dreg, sreg1, sreg2`: 32-bit conditional form, format R3c (R160). -/
  | andCond (cond : Cond) (creg : CReg) (dreg sreg1 sreg2 : Reg)
  /-- `and dr, sr`: 16-bit form, format r2 (R160). -/
  | andShort (dr sr : RegS)
  /-- `andi dreg, sreg1, imm`: 32-bit form, format I (R161). -/
  | andi (dreg sreg1 : Reg) (imm : BitVec 15)
  /-- `(cond, creg) andi dreg, sreg1, imm`: 32-bit conditional form, format Ic (R161). -/
  | andiCond (cond : Cond) (creg : CReg) (dreg sreg1 : Reg) (imm : BitVec 9)
  /-- `andi dr, imm`: 16-bit form, format i7 (R161). -/
  | andiShort (dr : RegS) (imm : BitVec 7)
  /-- `bc creg, imm`: 32-bit form, format B (R235). -/
  | bc (creg : CReg) (imm : BitVec 22)
  /-- `bc imm`: 16-bit form, format b10 (R235). -/
  | bcShort (imm : BitVec 10)
  /-- `begt creg, imm`: 32-bit form, format B (R236). -/
  | begt (creg : CReg) (imm : BitVec 22)
  /-- `begt imm`: 16-bit form, format b10 (R236). -/
  | begtShort (imm : BitVec 10)
  /-- `belt creg, imm`: 32-bit form, format B (R237). -/
  | belt (creg : CReg) (imm : BitVec 22)
  /-- `belt imm`: 16-bit form, format b10 (R237). -/
  | beltShort (imm : BitVec 10)
  /-- `beq creg, imm`: 32-bit form, format B (R238). -/
  | beq (creg : CReg) (imm : BitVec 22)
  /-- `beq imm`: 16-bit form, format b10 (R238). -/
  | beqShort (imm : BitVec 10)
  /-- `bgt creg, imm`: 32-bit form, format B (R239). -/
  | bgt (creg : CReg) (imm : BitVec 22)
  /-- `bgt imm`: 16-bit form, format b10 (R239). -/
  | bgtShort (imm : BitVec 10)
  /-- `blt creg, imm`: 32-bit form, format B (R240). -/
  | blt (creg : CReg) (imm : BitVec 22)
  /-- `blt imm`: 16-bit form, format b10 (R240). -/
  | bltShort (imm : BitVec 10)
  /-- `bne creg, imm`: 32-bit form, format B (R241). -/
  | bne (creg : CReg) (imm : BitVec 22)
  /-- `bne imm`: 16-bit form, format b10 (R241). -/
  | bneShort (imm : BitVec 10)
  /-- `chrs imm`: 32-bit form, format N2 (R271). -/
  | chrs (imm : BitVec 2)
  /-- `chrs imm`: 16-bit form, format n2 (R271). -/
  | chrsShort (imm : BitVec 2)
  /-- `cmp creg, sreg1, sreg2`: 32-bit form, format CMP (R147). -/
  | cmp (creg : CReg) (sreg1 sreg2 : Reg)
  /-- `cmp sr1, sr2`: 16-bit form, format c2 (R147). -/
  | cmpShort (sr1 sr2 : RegS)
  /-- `cmpi creg, sreg1, imm`: 32-bit form, format CMPI (R148). -/
  | cmpi (creg : CReg) (sreg1 : Reg) (imm : BitVec 17)
  /-- `cmpi sr, imm`: 16-bit form, format ci7 (R148). -/
  | cmpiShort (sr : RegS) (imm : BitVec 7)
  /-- `conb dreg, sreg1, sreg2`: 32-bit form, format R3 (R181). -/
  | conb (dreg sreg1 sreg2 : Reg)
  /-- `(cond, creg) conb dreg, sreg1, sreg2`: 32-bit conditional form, format R3c (R181). -/
  | conbCond (cond : Cond) (creg : CReg) (dreg sreg1 sreg2 : Reg)
  /-- `conb dr, sr`: 16-bit form, format r2 (R181). -/
  | conbShort (dr sr : RegS)
  /-- `conh dreg, sreg1, sreg2`: 32-bit form, format R3 (R182). -/
  | conh (dreg sreg1 sreg2 : Reg)
  /-- `(cond, creg) conh dreg, sreg1, sreg2`: 32-bit conditional form, format R3c (R182). -/
  | conhCond (cond : Cond) (creg : CReg) (dreg sreg1 sreg2 : Reg)
  /-- `conh dr, sr`: 16-bit form, format r2 (R182). -/
  | conhShort (dr sr : RegS)
  /-- `cop imm1, imm2`: 32-bit form, format COP (R301). -/
  | cop (imm1 : CopNum) (imm2 : BitVec 24)
  /-- `di`: 32-bit form, format SYS (R272). -/
  | di
  /-- `di`: 16-bit form, format sys (R272). -/
  | diShort
  /-- `ei`: 32-bit form, format SYS (R273). -/
  | ei
  /-- `ei`: 16-bit form, format sys (R273). -/
  | eiShort
  /-- `exb dreg, sreg1, imm`: 32-bit form, format S2 (R183). -/
  | exb (dreg sreg1 : Reg) (imm : BitVec 2)
  /-- `(cond, creg) exb dreg, sreg1, imm`: 32-bit conditional form, format S2c (R183). -/
  | exbCond (cond : Cond) (creg : CReg) (dreg sreg1 : Reg) (imm : BitVec 2)
  /-- `exb dr, sr, imm`: 16-bit form, format x2 (R183). -/
  | exbShort (dr sr : RegS) (imm : BitVec 2)
  /-- `exbf dreg, sreg1, sreg2`: 32-bit form, format R3 (R186). -/
  | exbf (dreg sreg1 sreg2 : Reg)
  /-- `(cond, creg) exbf dreg, sreg1, sreg2`: 32-bit conditional form, format R3c (R186). -/
  | exbfCond (cond : Cond) (creg : CReg) (dreg sreg1 sreg2 : Reg)
  /-- `exbf dr, sr`: 16-bit form, format r2 (R186). -/
  | exbfShort (dr sr : RegS)
  /-- `exbfi dreg, sreg1, imm`: 32-bit form, format BFI (R185). -/
  | exbfi (dreg sreg1 : Reg) (imm : BitVec 11)
  /-- `exh dreg, sreg1, imm`: 32-bit form, format S1 (R184). -/
  | exh (dreg sreg1 : Reg) (imm : BitVec 1)
  /-- `(cond, creg) exh dreg, sreg1, imm`: 32-bit conditional form, format S1c (R184). -/
  | exhCond (cond : Cond) (creg : CReg) (dreg sreg1 : Reg) (imm : BitVec 1)
  /-- `exh dr, sr, imm`: 16-bit form, format x1 (R184). -/
  | exhShort (dr sr : RegS) (imm : BitVec 1)
  /-- `jal imm`: 32-bit form, format J (R243). -/
  | jal (imm : BitVec 25)
  /-- `jal imm`: 16-bit form, format b10 (R243). -/
  | jalShort (imm : BitVec 10)
  /-- `jalr sreg1`: 32-bit form, format RS (R244). -/
  | jalr (sreg1 : Reg)
  /-- `(cond, creg) jalr sreg1`: 32-bit conditional form, format RSc (R244). -/
  | jalrCond (cond : Cond) (creg : CReg) (sreg1 : Reg)
  /-- `jalr sr`: 16-bit form, format rs (R244). -/
  | jalrShort (sr : RegS)
  /-- `jmp imm`: 32-bit form, format J (R245). -/
  | jmp (imm : BitVec 25)
  /-- `jmp imm`: 16-bit form, format b10 (R245). -/
  | jmpShort (imm : BitVec 10)
  /-- `jmpr sreg1`: 32-bit form, format RS (R246). -/
  | jmpr (sreg1 : Reg)
  /-- `(cond, creg) jmpr sreg1`: 32-bit conditional form, format RSc (R246). -/
  | jmprCond (cond : Cond) (creg : CReg) (sreg1 : Reg)
  /-- `jmpr sr`: 16-bit form, format rs (R246). -/
  | jmprShort (sr : RegS)
  /-- `ld dreg, sreg1, imm`: 32-bit form, format I (R261). -/
  | ld (dreg sreg1 : Reg) (imm : BitVec 15)
  /-- `(cond, creg) ld dreg, sreg1, imm`: 32-bit conditional form, format Ic (R261). -/
  | ldCond (cond : Cond) (creg : CReg) (dreg sreg1 : Reg) (imm : BitVec 9)
  /-- `ld dr, sr, imm`: 16-bit form, format m4 (R261). -/
  | ldShort (dr sr : RegS) (imm : BitVec 4)
  /-- `lli dreg, imm`: 32-bit form, format LI (R167). -/
  | lli (dreg : Reg) (imm : BitVec 16)
  /-- `lui dreg, imm`: 32-bit form, format LI (R168). -/
  | lui (dreg : Reg) (imm : BitVec 16)
  /-- `mov dreg, sreg1`: 32-bit form, format R2 (R166). -/
  | mov (dreg sreg1 : Reg)
  /-- `(cond, creg) mov dreg, sreg1`: 32-bit conditional form, format R2c (R166). -/
  | movCond (cond : Cond) (creg : CReg) (dreg sreg1 : Reg)
  /-- `mov dr, sr`: 16-bit form, format r2 (R166). -/
  | movShort (dr sr : RegS)
  /-- `movcfc imm, dreg`: 32-bit form, format CPF (R303). -/
  | movcfc (cpn : CopNum) (dreg : Reg)
  /-- `(cond, creg) movcfc imm, dreg`: 32-bit conditional form, format CPFc (R303). -/
  | movcfcCond (cond : Cond) (creg : CReg) (cpn : CopNum) (dreg : Reg)
  /-- `movcfc imm, dr`: 16-bit form, format cpf (R303). -/
  | movcfcShort (cpn : CopNum) (dr : RegS)
  /-- `movctc imm, sreg1`: 32-bit form, format CPT (R305). -/
  | movctc (cpn : CopNum) (sreg1 : Reg)
  /-- `(cond, creg) movctc imm, sreg1`: 32-bit conditional form, format CPTc (R305). -/
  | movctcCond (cond : Cond) (creg : CReg) (cpn : CopNum) (sreg1 : Reg)
  /-- `movctc imm, sr`: 16-bit form, format cpt (R305). -/
  | movctcShort (cpn : CopNum) (sr : RegS)
  /-- `movdfc imm, dreg, cp_sreg`: 32-bit form, format CPF (R302). -/
  | movdfc (cpn : CopNum) (dreg cpSreg : Reg)
  /-- `(cond, creg) movdfc imm, dreg, cp_sreg`: 32-bit conditional form, format CPFc (R302). -/
  | movdfcCond (cond : Cond) (creg : CReg) (cpn : CopNum) (dreg cpSreg : Reg)
  /-- `movdfc imm, dr, cp_sreg`: 16-bit form, format cpf (R302). -/
  | movdfcShort (cpn : CopNum) (dr : RegS) (cpSreg : Reg)
  /-- `movdtc imm, cp_dreg, sreg1`: 32-bit form, format CPT (R304). -/
  | movdtc (cpn : CopNum) (cpDreg sreg1 : Reg)
  /-- `(cond, creg) movdtc imm, cp_dreg, sreg1`: 32-bit conditional form, format CPTc (R304). -/
  | movdtcCond (cond : Cond) (creg : CReg) (cpn : CopNum) (cpDreg sreg1 : Reg)
  /-- `movdtc imm, cp_dreg, sr`: 16-bit form, format cpt (R304). -/
  | movdtcShort (cpn : CopNum) (cpDreg : Reg) (sr : RegS)
  /-- `mulhi dreg`: 32-bit form, format RD (R218). -/
  | mulhi (dreg : Reg)
  /-- `(cond, creg) mulhi dreg`: 32-bit conditional form, format RDc (R218). -/
  | mulhiCond (cond : Cond) (creg : CReg) (dreg : Reg)
  /-- `mulhi dr`: 16-bit form, format rd (R218). -/
  | mulhiShort (dr : RegS)
  /-- `muli dreg, sreg1, imm`: 32-bit form, format I (R211). -/
  | muli (dreg sreg1 : Reg) (imm : BitVec 15)
  /-- `(cond, creg) muli dreg, sreg1, imm`: 32-bit conditional form, format Ic (R211). -/
  | muliCond (cond : Cond) (creg : CReg) (dreg sreg1 : Reg) (imm : BitVec 9)
  /-- `muli dr, imm`: 16-bit form, format i7 (R211). -/
  | muliShort (dr : RegS) (imm : BitVec 7)
  /-- `muls dreg, sreg1, sreg2`: 32-bit form, format R3 (R212). -/
  | muls (dreg sreg1 sreg2 : Reg)
  /-- `(cond, creg) muls dreg, sreg1, sreg2`: 32-bit conditional form, format R3c (R212). -/
  | mulsCond (cond : Cond) (creg : CReg) (dreg sreg1 sreg2 : Reg)
  /-- `muls dr, sr`: 16-bit form, format r2 (R212). -/
  | mulsShort (dr sr : RegS)
  /-- `muls_16 dreg, sreg1, sreg2`: 32-bit form, format R3 (R215). -/
  | muls16 (dreg sreg1 sreg2 : Reg)
  /-- `(cond, creg) muls_16 dreg, sreg1, sreg2`: 32-bit conditional form, format R3c (R215). -/
  | muls16Cond (cond : Cond) (creg : CReg) (dreg sreg1 sreg2 : Reg)
  /-- `muls_16 dr, sr`: 16-bit form, format r2 (R215). -/
  | muls16Short (dr sr : RegS)
  /-- `mulu dreg, sreg1, sreg2`: 32-bit form, format R3 (R213). -/
  | mulu (dreg sreg1 sreg2 : Reg)
  /-- `(cond, creg) mulu dreg, sreg1, sreg2`: 32-bit conditional form, format R3c (R213). -/
  | muluCond (cond : Cond) (creg : CReg) (dreg sreg1 sreg2 : Reg)
  /-- `mulu dr, sr`: 16-bit form, format r2 (R213). -/
  | muluShort (dr sr : RegS)
  /-- `mulu_16 dreg, sreg1, sreg2`: 32-bit form, format R3 (R216). -/
  | mulu16 (dreg sreg1 sreg2 : Reg)
  /-- `(cond, creg) mulu_16 dreg, sreg1, sreg2`: 32-bit conditional form, format R3c (R216). -/
  | mulu16Cond (cond : Cond) (creg : CReg) (dreg sreg1 sreg2 : Reg)
  /-- `mulu_16 dr, sr`: 16-bit form, format r2 (R216). -/
  | mulu16Short (dr sr : RegS)
  /-- `mulus dreg, sreg1, sreg2`: 32-bit form, format R3 (R214). -/
  | mulus (dreg sreg1 sreg2 : Reg)
  /-- `(cond, creg) mulus dreg, sreg1, sreg2`: 32-bit conditional form, format R3c (R214). -/
  | mulusCond (cond : Cond) (creg : CReg) (dreg sreg1 sreg2 : Reg)
  /-- `mulus dr, sr`: 16-bit form, format r2 (R214). -/
  | mulusShort (dr sr : RegS)
  /-- `mulus_16 dreg, sreg1, sreg2`: 32-bit form, format R3 (R217). -/
  | mulus16 (dreg sreg1 sreg2 : Reg)
  /-- `(cond, creg) mulus_16 dreg, sreg1, sreg2`: 32-bit conditional form, format R3c (R217). -/
  | mulus16Cond (cond : Cond) (creg : CReg) (dreg sreg1 sreg2 : Reg)
  /-- `mulus_16 dr, sr`: 16-bit form, format r2 (R217). -/
  | mulus16Short (dr sr : RegS)
  /-- `nop`: 32-bit form, format SYS (R247). -/
  | nop
  /-- `nop`: 16-bit form, format sys (R247). -/
  | nopShort
  /-- `not dreg, sreg1`: 32-bit form, format R2 (R165). -/
  | not (dreg sreg1 : Reg)
  /-- `(cond, creg) not dreg, sreg1`: 32-bit conditional form, format R2c (R165). -/
  | notCond (cond : Cond) (creg : CReg) (dreg sreg1 : Reg)
  /-- `not dr, sr`: 16-bit form, format r2 (R165). -/
  | notShort (dr sr : RegS)
  /-- `or dreg, sreg1, sreg2`: 32-bit form, format R3 (R162). -/
  | or (dreg sreg1 sreg2 : Reg)
  /-- `(cond, creg) or dreg, sreg1, sreg2`: 32-bit conditional form, format R3c (R162). -/
  | orCond (cond : Cond) (creg : CReg) (dreg sreg1 sreg2 : Reg)
  /-- `or dr, sr`: 16-bit form, format r2 (R162). -/
  | orShort (dr sr : RegS)
  /-- `ori dreg, sreg1, imm`: 32-bit form, format I (R163). -/
  | ori (dreg sreg1 : Reg) (imm : BitVec 15)
  /-- `(cond, creg) ori dreg, sreg1, imm`: 32-bit conditional form, format Ic (R163). -/
  | oriCond (cond : Cond) (creg : CReg) (dreg sreg1 : Reg) (imm : BitVec 9)
  /-- `ori dr, imm`: 16-bit form, format i7 (R163). -/
  | oriShort (dr : RegS) (imm : BitVec 7)
  /-- `rcon sreg1`: 32-bit form, format NS (R277). -/
  | rcon (sreg1 : Reg)
  /-- `rcon sr`: 16-bit form, format rs (R277). -/
  | rconShort (sr : RegS)
  /-- `reti`: 32-bit form, format SYS (R282). -/
  | reti
  /-- `reti`: 16-bit form, format sys (R282). -/
  | retiShort
  /-- `retu`: 32-bit form, format SYS (R281). -/
  | retu
  /-- `retu`: 16-bit form, format sys (R281). -/
  | retuShort
  /-- `scall`: 32-bit form, format SC (R280). -/
  | scall
  /-- `(cond, creg) scall `: 32-bit conditional form, format SCc (R280). -/
  | scallCond (cond : Cond) (creg : CReg)
  /-- `scall`: 16-bit form, format sc (R280). -/
  | scallShort
  /-- `scon dreg`: 32-bit form, format ND (R276). -/
  | scon (dreg : Reg)
  /-- `scon dr`: 16-bit form, format rd (R276). -/
  | sconShort (dr : RegS)
  /-- `sext dreg, sreg1, sreg2`: 32-bit form, format R3 (R188). -/
  | sext (dreg sreg1 sreg2 : Reg)
  /-- `(cond, creg) sext dreg, sreg1, sreg2`: 32-bit conditional form, format R3c (R188). -/
  | sextCond (cond : Cond) (creg : CReg) (dreg sreg1 sreg2 : Reg)
  /-- `sext dr, sr`: 16-bit form, format r2 (R188). -/
  | sextShort (dr sr : RegS)
  /-- `sexti dreg, sreg1, imm`: 32-bit form, format S5 (R187). -/
  | sexti (dreg sreg1 : Reg) (imm : BitVec 5)
  /-- `(cond, creg) sexti dreg, sreg1, imm`: 32-bit conditional form, format S5c (R187). -/
  | sextiCond (cond : Cond) (creg : CReg) (dreg sreg1 : Reg) (imm : BitVec 5)
  /-- `sexti dr, imm`: 16-bit form, format s5 (R187). -/
  | sextiShort (dr : RegS) (imm : BitVec 5)
  /-- `sll dreg, sreg1, sreg2`: 32-bit form, format R3 (R190). -/
  | sll (dreg sreg1 sreg2 : Reg)
  /-- `(cond, creg) sll dreg, sreg1, sreg2`: 32-bit conditional form, format R3c (R190). -/
  | sllCond (cond : Cond) (creg : CReg) (dreg sreg1 sreg2 : Reg)
  /-- `sll dr, sr`: 16-bit form, format r2 (R190). -/
  | sllShort (dr sr : RegS)
  /-- `slli dreg, sreg1, imm`: 32-bit form, format S6 (R191). -/
  | slli (dreg sreg1 : Reg) (imm : BitVec 6)
  /-- `(cond, creg) slli dreg, sreg1, imm`: 32-bit conditional form, format S6c (R191). -/
  | slliCond (cond : Cond) (creg : CReg) (dreg sreg1 : Reg) (imm : BitVec 6)
  /-- `slli dr, imm`: 16-bit form, format s6 (R191). -/
  | slliShort (dr : RegS) (imm : BitVec 6)
  /-- `sra dreg, sreg1, sreg2`: 32-bit form, format R3 (R194). -/
  | sra (dreg sreg1 sreg2 : Reg)
  /-- `(cond, creg) sra dreg, sreg1, sreg2`: 32-bit conditional form, format R3c (R194). -/
  | sraCond (cond : Cond) (creg : CReg) (dreg sreg1 sreg2 : Reg)
  /-- `sra dr, sr`: 16-bit form, format r2 (R194). -/
  | sraShort (dr sr : RegS)
  /-- `srai dreg, sreg1, imm`: 32-bit form, format S6 (R195). -/
  | srai (dreg sreg1 : Reg) (imm : BitVec 6)
  /-- `(cond, creg) srai dreg, sreg1, imm`: 32-bit conditional form, format S6c (R195). -/
  | sraiCond (cond : Cond) (creg : CReg) (dreg sreg1 : Reg) (imm : BitVec 6)
  /-- `srai dr, imm`: 16-bit form, format s6 (R195). -/
  | sraiShort (dr : RegS) (imm : BitVec 6)
  /-- `srl dreg, sreg1, sreg2`: 32-bit form, format R3 (R192). -/
  | srl (dreg sreg1 sreg2 : Reg)
  /-- `(cond, creg) srl dreg, sreg1, sreg2`: 32-bit conditional form, format R3c (R192). -/
  | srlCond (cond : Cond) (creg : CReg) (dreg sreg1 sreg2 : Reg)
  /-- `srl dr, sr`: 16-bit form, format r2 (R192). -/
  | srlShort (dr sr : RegS)
  /-- `srli dreg, sreg1, imm`: 32-bit form, format S6 (R193). -/
  | srli (dreg sreg1 : Reg) (imm : BitVec 6)
  /-- `(cond, creg) srli dreg, sreg1, imm`: 32-bit conditional form, format S6c (R193). -/
  | srliCond (cond : Cond) (creg : CReg) (dreg sreg1 : Reg) (imm : BitVec 6)
  /-- `srli dr, imm`: 16-bit form, format s6 (R193). -/
  | srliShort (dr : RegS) (imm : BitVec 6)
  /-- `st sreg2, sreg1, imm`: 32-bit form, format ST (R262). -/
  | st (sreg2 sreg1 : Reg) (imm : BitVec 15)
  /-- `(cond, creg) st sreg2, sreg1, imm`: 32-bit conditional form, format STc (R262). -/
  | stCond (cond : Cond) (creg : CReg) (sreg2 sreg1 : Reg) (imm : BitVec 9)
  /-- `st sr2, sr1, imm`: 16-bit form, format st4 (R262). -/
  | stShort (sr2 sr1 : RegS) (imm : BitVec 4)
  /-- `sub dreg, sreg1, sreg2`: 32-bit form, format R3 (R145). -/
  | sub (dreg sreg1 sreg2 : Reg)
  /-- `(cond, creg) sub dreg, sreg1, sreg2`: 32-bit conditional form, format R3c (R145). -/
  | subCond (cond : Cond) (creg : CReg) (dreg sreg1 sreg2 : Reg)
  /-- `sub dr, sr`: 16-bit form, format r2 (R145). -/
  | subShort (dr sr : RegS)
  /-- `subu dreg, sreg1, sreg2`: 32-bit form, format R3 (R146). -/
  | subu (dreg sreg1 sreg2 : Reg)
  /-- `(cond, creg) subu dreg, sreg1, sreg2`: 32-bit conditional form, format R3c (R146). -/
  | subuCond (cond : Cond) (creg : CReg) (dreg sreg1 sreg2 : Reg)
  /-- `subu dr, sr`: 16-bit form, format r2 (R146). -/
  | subuShort (dr sr : RegS)
  /-- `swm imm`: 32-bit form, format N6 (R284). -/
  | swm (imm : BitVec 6)
  /-- `swm imm`: 16-bit form, format n6 (R284). -/
  | swmShort (imm : BitVec 6)
  /-- `trap`: 32-bit form, format SYS (R286). -/
  | trap
  /-- `trap`: 16-bit form, format sys (R286). -/
  | trapShort
  /-- `xor dreg, sreg1, sreg2`: 32-bit form, format R3 (R164). -/
  | xor (dreg sreg1 sreg2 : Reg)
  /-- `(cond, creg) xor dreg, sreg1, sreg2`: 32-bit conditional form, format R3c (R164). -/
  | xorCond (cond : Cond) (creg : CReg) (dreg sreg1 sreg2 : Reg)
  /-- `xor dr, sr`: 16-bit form, format r2 (R164). -/
  | xorShort (dr sr : RegS)
  deriving DecidableEq, Repr

/-- The length mode in which a form exists (R90, R91): the decoder answers it in that mode only. -/
def Instr.mode : Instr → ILen
  | .add .. | .addCond .. | .addi .. | .addiCond .. | .addiu .. | .addiuCond .. | .addu .. | .adduCond ..
  | .and .. | .andCond .. | .andi .. | .andiCond .. | .bc .. | .begt .. | .belt .. | .beq .. | .bgt ..
  | .blt .. | .bne .. | .chrs .. | .cmp .. | .cmpi .. | .conb .. | .conbCond .. | .conh .. | .conhCond ..
  | .cop .. | .di | .ei | .exb .. | .exbCond .. | .exbf .. | .exbfCond .. | .exbfi .. | .exh ..
  | .exhCond .. | .jal .. | .jalr .. | .jalrCond .. | .jmp .. | .jmpr .. | .jmprCond .. | .ld .. | .ldCond ..
  | .lli .. | .lui .. | .mov .. | .movCond .. | .movcfc .. | .movcfcCond .. | .movctc .. | .movctcCond ..
  | .movdfc .. | .movdfcCond .. | .movdtc .. | .movdtcCond .. | .mulhi .. | .mulhiCond .. | .muli ..
  | .muliCond .. | .muls .. | .mulsCond .. | .muls16 .. | .muls16Cond .. | .mulu .. | .muluCond .. | .mulu16 ..
  | .mulu16Cond .. | .mulus .. | .mulusCond .. | .mulus16 .. | .mulus16Cond .. | .nop | .not ..
  | .notCond .. | .or .. | .orCond .. | .ori .. | .oriCond .. | .rcon .. | .reti | .retu | .scall
  | .scallCond .. | .scon .. | .sext .. | .sextCond .. | .sexti .. | .sextiCond .. | .sll .. | .sllCond ..
  | .slli .. | .slliCond .. | .sra .. | .sraCond .. | .srai .. | .sraiCond .. | .srl .. | .srlCond ..
  | .srli .. | .srliCond .. | .st .. | .stCond .. | .sub .. | .subCond .. | .subu .. | .subuCond .. | .swm ..
  | .trap | .xor .. | .xorCond .. => .il32
  | .addShort .. | .addiShort .. | .addiuShort .. | .adduShort .. | .andShort .. | .andiShort .. | .bcShort ..
  | .begtShort .. | .beltShort .. | .beqShort .. | .bgtShort .. | .bltShort .. | .bneShort .. | .chrsShort ..
  | .cmpShort .. | .cmpiShort .. | .conbShort .. | .conhShort .. | .diShort | .eiShort | .exbShort ..
  | .exbfShort .. | .exhShort .. | .jalShort .. | .jalrShort .. | .jmpShort .. | .jmprShort .. | .ldShort ..
  | .movShort .. | .movcfcShort .. | .movctcShort .. | .movdfcShort .. | .movdtcShort .. | .mulhiShort ..
  | .muliShort .. | .mulsShort .. | .muls16Short .. | .muluShort .. | .mulu16Short .. | .mulusShort ..
  | .mulus16Short .. | .nopShort | .notShort .. | .orShort .. | .oriShort .. | .rconShort .. | .retiShort
  | .retuShort | .scallShort | .sconShort .. | .sextShort .. | .sextiShort .. | .sllShort ..
  | .slliShort .. | .sraShort .. | .sraiShort .. | .srlShort .. | .srliShort .. | .stShort .. | .subShort ..
  | .subuShort .. | .swmShort .. | .trapShort | .xorShort .. => .il16

/-- The `(cond, creg)` prefix of a conditional form (R16, R232); the other forms have none. -/
def Instr.condition? : Instr → Option (Cond × CReg)
  | .addCond cond creg _ _ _ => some (cond, creg)
  | .addiCond cond creg _ _ _ => some (cond, creg)
  | .addiuCond cond creg _ _ _ => some (cond, creg)
  | .adduCond cond creg _ _ _ => some (cond, creg)
  | .andCond cond creg _ _ _ => some (cond, creg)
  | .andiCond cond creg _ _ _ => some (cond, creg)
  | .conbCond cond creg _ _ _ => some (cond, creg)
  | .conhCond cond creg _ _ _ => some (cond, creg)
  | .exbCond cond creg _ _ _ => some (cond, creg)
  | .exbfCond cond creg _ _ _ => some (cond, creg)
  | .exhCond cond creg _ _ _ => some (cond, creg)
  | .jalrCond cond creg _ => some (cond, creg)
  | .jmprCond cond creg _ => some (cond, creg)
  | .ldCond cond creg _ _ _ => some (cond, creg)
  | .movCond cond creg _ _ => some (cond, creg)
  | .movcfcCond cond creg _ _ => some (cond, creg)
  | .movctcCond cond creg _ _ => some (cond, creg)
  | .movdfcCond cond creg _ _ _ => some (cond, creg)
  | .movdtcCond cond creg _ _ _ => some (cond, creg)
  | .mulhiCond cond creg _ => some (cond, creg)
  | .muliCond cond creg _ _ _ => some (cond, creg)
  | .mulsCond cond creg _ _ _ => some (cond, creg)
  | .muls16Cond cond creg _ _ _ => some (cond, creg)
  | .muluCond cond creg _ _ _ => some (cond, creg)
  | .mulu16Cond cond creg _ _ _ => some (cond, creg)
  | .mulusCond cond creg _ _ _ => some (cond, creg)
  | .mulus16Cond cond creg _ _ _ => some (cond, creg)
  | .notCond cond creg _ _ => some (cond, creg)
  | .orCond cond creg _ _ _ => some (cond, creg)
  | .oriCond cond creg _ _ _ => some (cond, creg)
  | .scallCond cond creg => some (cond, creg)
  | .sextCond cond creg _ _ _ => some (cond, creg)
  | .sextiCond cond creg _ _ _ => some (cond, creg)
  | .sllCond cond creg _ _ _ => some (cond, creg)
  | .slliCond cond creg _ _ _ => some (cond, creg)
  | .sraCond cond creg _ _ _ => some (cond, creg)
  | .sraiCond cond creg _ _ _ => some (cond, creg)
  | .srlCond cond creg _ _ _ => some (cond, creg)
  | .srliCond cond creg _ _ _ => some (cond, creg)
  | .stCond cond creg _ _ _ => some (cond, creg)
  | .subCond cond creg _ _ _ => some (cond, creg)
  | .subuCond cond creg _ _ _ => some (cond, creg)
  | .xorCond cond creg _ _ _ => some (cond, creg)
  | .add .. | .addShort .. | .addi .. | .addiShort .. | .addiu .. | .addiuShort .. | .addu .. | .adduShort ..
  | .and .. | .andShort .. | .andi .. | .andiShort .. | .bc .. | .bcShort .. | .begt .. | .begtShort ..
  | .belt .. | .beltShort .. | .beq .. | .beqShort .. | .bgt .. | .bgtShort .. | .blt .. | .bltShort ..
  | .bne .. | .bneShort .. | .chrs .. | .chrsShort .. | .cmp .. | .cmpShort .. | .cmpi .. | .cmpiShort ..
  | .conb .. | .conbShort .. | .conh .. | .conhShort .. | .cop .. | .di | .diShort | .ei | .eiShort
  | .exb .. | .exbShort .. | .exbf .. | .exbfShort .. | .exbfi .. | .exh .. | .exhShort .. | .jal ..
  | .jalShort .. | .jalr .. | .jalrShort .. | .jmp .. | .jmpShort .. | .jmpr .. | .jmprShort .. | .ld ..
  | .ldShort .. | .lli .. | .lui .. | .mov .. | .movShort .. | .movcfc .. | .movcfcShort .. | .movctc ..
  | .movctcShort .. | .movdfc .. | .movdfcShort .. | .movdtc .. | .movdtcShort .. | .mulhi .. | .mulhiShort ..
  | .muli .. | .muliShort .. | .muls .. | .mulsShort .. | .muls16 .. | .muls16Short .. | .mulu ..
  | .muluShort .. | .mulu16 .. | .mulu16Short .. | .mulus .. | .mulusShort .. | .mulus16 .. | .mulus16Short ..
  | .nop | .nopShort | .not .. | .notShort .. | .or .. | .orShort .. | .ori .. | .oriShort .. | .rcon ..
  | .rconShort .. | .reti | .retiShort | .retu | .retuShort | .scall | .scallShort | .scon ..
  | .sconShort .. | .sext .. | .sextShort .. | .sexti .. | .sextiShort .. | .sll .. | .sllShort .. | .slli ..
  | .slliShort .. | .sra .. | .sraShort .. | .srai .. | .sraiShort .. | .srl .. | .srlShort .. | .srli ..
  | .srliShort .. | .st .. | .stShort .. | .sub .. | .subShort .. | .subu .. | .subuShort .. | .swm ..
  | .swmShort .. | .trap | .trapShort | .xor .. | .xorShort .. => none

/-- The part of each instruction in the branch-slot discipline: R231 lists the slot-bearing ones. -/
def Instr.slotRole : Instr → SlotRole
  | .bc .. | .bcShort .. | .begt .. | .begtShort .. | .belt .. | .beltShort .. | .beq .. | .beqShort ..
  | .bgt .. | .bgtShort .. | .blt .. | .bltShort .. | .bne .. | .bneShort .. | .jal .. | .jalShort ..
  | .jalr .. | .jalrCond .. | .jalrShort .. | .jmp .. | .jmpShort .. | .jmpr .. | .jmprCond .. | .jmprShort ..
  | .reti | .retiShort | .retu | .retuShort | .scall | .scallCond .. | .scallShort | .swm ..
  | .swmShort .. => .bearing
  | .nop | .nopShort => .filler
  | .add .. | .addCond .. | .addShort .. | .addi .. | .addiCond .. | .addiShort .. | .addiu .. | .addiuCond ..
  | .addiuShort .. | .addu .. | .adduCond .. | .adduShort .. | .and .. | .andCond .. | .andShort .. | .andi ..
  | .andiCond .. | .andiShort .. | .chrs .. | .chrsShort .. | .cmp .. | .cmpShort .. | .cmpi .. | .cmpiShort ..
  | .conb .. | .conbCond .. | .conbShort .. | .conh .. | .conhCond .. | .conhShort .. | .cop .. | .di
  | .diShort | .ei | .eiShort | .exb .. | .exbCond .. | .exbShort .. | .exbf .. | .exbfCond ..
  | .exbfShort .. | .exbfi .. | .exh .. | .exhCond .. | .exhShort .. | .ld .. | .ldCond .. | .ldShort ..
  | .lli .. | .lui .. | .mov .. | .movCond .. | .movShort .. | .movcfc .. | .movcfcCond .. | .movcfcShort ..
  | .movctc .. | .movctcCond .. | .movctcShort .. | .movdfc .. | .movdfcCond .. | .movdfcShort .. | .movdtc ..
  | .movdtcCond .. | .movdtcShort .. | .mulhi .. | .mulhiCond .. | .mulhiShort .. | .muli .. | .muliCond ..
  | .muliShort .. | .muls .. | .mulsCond .. | .mulsShort .. | .muls16 .. | .muls16Cond .. | .muls16Short ..
  | .mulu .. | .muluCond .. | .muluShort .. | .mulu16 .. | .mulu16Cond .. | .mulu16Short .. | .mulus ..
  | .mulusCond .. | .mulusShort .. | .mulus16 .. | .mulus16Cond .. | .mulus16Short .. | .not .. | .notCond ..
  | .notShort .. | .or .. | .orCond .. | .orShort .. | .ori .. | .oriCond .. | .oriShort .. | .rcon ..
  | .rconShort .. | .scon .. | .sconShort .. | .sext .. | .sextCond .. | .sextShort .. | .sexti ..
  | .sextiCond .. | .sextiShort .. | .sll .. | .sllCond .. | .sllShort .. | .slli .. | .slliCond ..
  | .slliShort .. | .sra .. | .sraCond .. | .sraShort .. | .srai .. | .sraiCond .. | .sraiShort .. | .srl ..
  | .srlCond .. | .srlShort .. | .srli .. | .srliCond .. | .srliShort .. | .st .. | .stCond .. | .stShort ..
  | .sub .. | .subCond .. | .subShort .. | .subu .. | .subuCond .. | .subuShort .. | .trap | .trapShort
  | .xor .. | .xorCond .. | .xorShort .. => .plain

/-- The slot of `scall`, `retu`, `reti` and `swm` must be a `nop` (R234 b, R376). -/
def Instr.needsNop : Instr → Bool
  | .reti | .retiShort | .retu | .retuShort | .scall | .scallCond .. | .scallShort | .swm ..
  | .swmShort .. => true
  | .add .. | .addCond .. | .addShort .. | .addi .. | .addiCond .. | .addiShort .. | .addiu .. | .addiuCond ..
  | .addiuShort .. | .addu .. | .adduCond .. | .adduShort .. | .and .. | .andCond .. | .andShort .. | .andi ..
  | .andiCond .. | .andiShort .. | .bc .. | .bcShort .. | .begt .. | .begtShort .. | .belt .. | .beltShort ..
  | .beq .. | .beqShort .. | .bgt .. | .bgtShort .. | .blt .. | .bltShort .. | .bne .. | .bneShort ..
  | .chrs .. | .chrsShort .. | .cmp .. | .cmpShort .. | .cmpi .. | .cmpiShort .. | .conb .. | .conbCond ..
  | .conbShort .. | .conh .. | .conhCond .. | .conhShort .. | .cop .. | .di | .diShort | .ei
  | .eiShort | .exb .. | .exbCond .. | .exbShort .. | .exbf .. | .exbfCond .. | .exbfShort .. | .exbfi ..
  | .exh .. | .exhCond .. | .exhShort .. | .jal .. | .jalShort .. | .jalr .. | .jalrCond .. | .jalrShort ..
  | .jmp .. | .jmpShort .. | .jmpr .. | .jmprCond .. | .jmprShort .. | .ld .. | .ldCond .. | .ldShort ..
  | .lli .. | .lui .. | .mov .. | .movCond .. | .movShort .. | .movcfc .. | .movcfcCond .. | .movcfcShort ..
  | .movctc .. | .movctcCond .. | .movctcShort .. | .movdfc .. | .movdfcCond .. | .movdfcShort .. | .movdtc ..
  | .movdtcCond .. | .movdtcShort .. | .mulhi .. | .mulhiCond .. | .mulhiShort .. | .muli .. | .muliCond ..
  | .muliShort .. | .muls .. | .mulsCond .. | .mulsShort .. | .muls16 .. | .muls16Cond .. | .muls16Short ..
  | .mulu .. | .muluCond .. | .muluShort .. | .mulu16 .. | .mulu16Cond .. | .mulu16Short .. | .mulus ..
  | .mulusCond .. | .mulusShort .. | .mulus16 .. | .mulus16Cond .. | .mulus16Short .. | .nop | .nopShort
  | .not .. | .notCond .. | .notShort .. | .or .. | .orCond .. | .orShort .. | .ori .. | .oriCond ..
  | .oriShort .. | .rcon .. | .rconShort .. | .scon .. | .sconShort .. | .sext .. | .sextCond ..
  | .sextShort .. | .sexti .. | .sextiCond .. | .sextiShort .. | .sll .. | .sllCond .. | .sllShort ..
  | .slli .. | .slliCond .. | .slliShort .. | .sra .. | .sraCond .. | .sraShort .. | .srai .. | .sraiCond ..
  | .sraiShort .. | .srl .. | .srlCond .. | .srlShort .. | .srli .. | .srliCond .. | .srliShort .. | .st ..
  | .stCond .. | .stShort .. | .sub .. | .subCond .. | .subShort .. | .subu .. | .subuCond .. | .subuShort ..
  | .trap | .trapShort | .xor .. | .xorCond .. | .xorShort .. => false

end Sys2Proof
end

