-- ==== Sys2Proof/WellFormed.lean ====
section
/-! DEFINITION. What makes an instruction well formed: the operand values of Table 1 (spec/30_encoding.md R92) that the
width of a field does not already enforce, and the one spelling the decoder answers for a word that has two names. -/

namespace Sys2Proof

/-- A shift immediate that Table 1 permits: 0...32 (R92, R189). A larger one decodes and is refused when executed. -/
def shiftImmOk (imm : BitVec 6) : Bool := decide (imm.toNat ≤ 32)

/-- `movdfc` and `movdtc` of coprocessor register 0 are the words that `movcfc` and `movctc` name (R303, R305):
the decoder answers the second name, so the first is not the canonical spelling (log entry 2). -/
def cpRegOk (r : Reg) : Bool := r != 0#5

/-- The well-formed instructions: every operand is one an assembler accepts (R92), in its canonical spelling. Register
numbers, condition registers, coprocessor numbers and the other immediates are right by the width of their field;
`swm` takes any 6-bit value (R92 footnote 3, 90_conflicts.md C7). -/
def wellFormed : Instr → Bool
  | .movdfc _ _ r => cpRegOk r
  | .movdfcCond _ _ _ _ r => cpRegOk r
  | .movdfcShort _ _ r => cpRegOk r
  | .movdtc _ r _ => cpRegOk r
  | .movdtcCond _ _ _ r _ => cpRegOk r
  | .movdtcShort _ r _ => cpRegOk r
  | .slli _ _ imm => shiftImmOk imm
  | .slliCond _ _ _ _ imm => shiftImmOk imm
  | .slliShort _ imm => shiftImmOk imm
  | .srai _ _ imm => shiftImmOk imm
  | .sraiCond _ _ _ _ imm => shiftImmOk imm
  | .sraiShort _ imm => shiftImmOk imm
  | .srli _ _ imm => shiftImmOk imm
  | .srliCond _ _ _ _ imm => shiftImmOk imm
  | .srliShort _ imm => shiftImmOk imm
  | .add .. | .addCond .. | .addShort .. | .addi .. | .addiCond .. | .addiShort .. | .addiu .. | .addiuCond ..
  | .addiuShort .. | .addu .. | .adduCond .. | .adduShort .. | .and .. | .andCond .. | .andShort .. | .andi ..
  | .andiCond .. | .andiShort .. | .bc .. | .bcShort .. | .begt .. | .begtShort .. | .belt .. | .beltShort ..
  | .beq .. | .beqShort .. | .bgt .. | .bgtShort .. | .blt .. | .bltShort .. | .bne .. | .bneShort ..
  | .chrs .. | .chrsShort .. | .cmp .. | .cmpShort .. | .cmpi .. | .cmpiShort .. | .conb .. | .conbCond ..
  | .conbShort .. | .conh .. | .conhCond .. | .conhShort .. | .cop .. | .di | .diShort | .ei | .eiShort
  | .exb .. | .exbCond .. | .exbShort .. | .exbf .. | .exbfCond .. | .exbfShort .. | .exbfi .. | .exh ..
  | .exhCond .. | .exhShort .. | .jal .. | .jalShort .. | .jalr .. | .jalrCond .. | .jalrShort .. | .jmp ..
  | .jmpShort .. | .jmpr .. | .jmprCond .. | .jmprShort .. | .ld .. | .ldCond .. | .ldShort .. | .lli ..
  | .lui .. | .mov .. | .movCond .. | .movShort .. | .movcfc .. | .movcfcCond .. | .movcfcShort .. | .movctc ..
  | .movctcCond .. | .movctcShort .. | .mulhi .. | .mulhiCond .. | .mulhiShort .. | .muli .. | .muliCond ..
  | .muliShort .. | .muls .. | .mulsCond .. | .mulsShort .. | .muls16 .. | .muls16Cond .. | .muls16Short ..
  | .mulu .. | .muluCond .. | .muluShort .. | .mulu16 .. | .mulu16Cond .. | .mulu16Short .. | .mulus ..
  | .mulusCond .. | .mulusShort .. | .mulus16 .. | .mulus16Cond .. | .mulus16Short .. | .nop | .nopShort
  | .not .. | .notCond .. | .notShort .. | .or .. | .orCond .. | .orShort .. | .ori .. | .oriCond ..
  | .oriShort .. | .rcon .. | .rconShort .. | .reti | .retiShort | .retu | .retuShort | .scall | .scallCond ..
  | .scallShort | .scon .. | .sconShort .. | .sext .. | .sextCond .. | .sextShort .. | .sexti ..
  | .sextiCond .. | .sextiShort .. | .sll .. | .sllCond .. | .sllShort .. | .sra .. | .sraCond ..
  | .sraShort .. | .srl .. | .srlCond .. | .srlShort .. | .st .. | .stCond .. | .stShort .. | .sub ..
  | .subCond .. | .subShort .. | .subu .. | .subuCond .. | .subuShort .. | .swm .. | .swmShort .. | .trap
  | .trapShort | .xor .. | .xorCond .. | .xorShort .. => true

end Sys2Proof
end

