-- ==== Sys2Proof/Decode.lean ====
section
/-! DEFINITION. The spec's reference encoding (spec/30_encoding.md R100 to R112; log entry 1): the decoder, total on any
bytes and rejecting by name, and after it the encoder, written from the same tables. -/

namespace Sys2Proof

/-- Why a word is no instruction (R120). Every one of them is the spec's `illegal`. -/
inductive Illegal where
  /-- A primary opcode that is not assigned: 61, 62, 63 (R110). -/
  | opcode
  /-- Opcode 60 with `fn` 6 or 7 (R112). -/
  | function
  /-- `cond` = 7 (R111). -/
  | condition
  /-- `cx` = 1 on an instruction with no conditional form (R101). -/
  | conditional
  /-- A must-be-zero bit is set (R101, R103). -/
  | reserved
  /-- An instruction of 32-bit mode only, met in 16-bit mode (R17). -/
  | only32
  /-- Not as many bytes as an instruction of the mode has (R90). -/
  | size
  deriving DecidableEq, Repr

/-- What decoding answers: an instruction or the reason there is none (R120). -/
abbrev Decoded := Except Illegal Instr

/-! ### Fields and numbers -/

/-- `W[lo+n-1 : lo]` (R6). -/
def fieldAt {m : Nat} (w : BitVec m) (lo n : Nat) : BitVec n := w.extractLsb' lo n

/-- Fields that make up 32 bits, as a word (R101). -/
def toWord {m : Nat} (b : BitVec m) : Word := b.setWidth 32

/-- Fields that make up 16 bits, as a halfword (R103). -/
def toHalf {m : Nat} (b : BitVec m) : Half := b.setWidth 16

/-- The primary opcode `W[31:26]` (R101). -/
def opcode (w : Word) : Nat := (fieldAt w 26 6).toNat

/-- The primary opcode `H[15:10]` (R103). -/
def opcodeS (h : Half) : Nat := (fieldAt h 10 6).toNat

/-- The condition a `cond` field names (R111); 7 is unassigned. -/
def condOf (b : BitVec 3) : Option Cond :=
  match b.toNat with
  | 0 => some .c
  | 1 => some .egt
  | 2 => some .elt
  | 3 => some .eq
  | 4 => some .gt
  | 5 => some .lt
  | 6 => some .ne
  | _ => none

/-- The number of a condition (R111). -/
def condBits : Cond → BitVec 3
  | .c => 0#3
  | .egt => 1#3
  | .elt => 2#3
  | .eq => 3#3
  | .gt => 4#3
  | .lt => 5#3
  | .ne => 6#3

/-- An instruction whose must-be-zero bits are `b` (R101, R103). -/
def ifZero {n : Nat} (b : BitVec n) (i : Instr) : Decoded := if b = 0#n then .ok i else .error .reserved

/-- The `cx` bit of a format with both variants (R101): 0 for the unconditional form, 1 for the conditional one, whose
`cond` is `W[24:22]` and `creg` `W[21:19]`. -/
def byForm (w : Word) (plain : Decoded) (cond : Cond → CReg → Decoded) : Decoded :=
  if fieldAt w 25 1 = 0#1 then plain
  else match condOf (fieldAt w 22 3) with
    | some cc => cond cc (fieldAt w 19 3)
    | none => .error .condition

/-- The `cx` bit of a format with no conditional variant must be 0 (R101, R120). -/
def unconditional (w : Word) (d : Decoded) : Decoded :=
  if fieldAt w 25 1 = 0#1 then d else .error .conditional

/-! ### The formats of 32-bit mode (R102) -/

/-- R3: sreg2 `[14:10]`, sreg1 `[9:5]`, dreg `[4:0]`. -/
def formatR3 (u : Reg → Reg → Reg → Instr) (c : Cond → CReg → Reg → Reg → Reg → Instr) (w : Word) : Decoded :=
  byForm w (ifZero (fieldAt w 15 10) (u (fieldAt w 0 5) (fieldAt w 5 5) (fieldAt w 10 5)))
    fun cc k => ifZero (fieldAt w 15 4) (c cc k (fieldAt w 0 5) (fieldAt w 5 5) (fieldAt w 10 5))

/-- R2: sreg1 `[9:5]`, dreg `[4:0]`. -/
def formatR2 (u : Reg → Reg → Instr) (c : Cond → CReg → Reg → Reg → Instr) (w : Word) : Decoded :=
  byForm w (ifZero (fieldAt w 10 15) (u (fieldAt w 0 5) (fieldAt w 5 5)))
    fun cc k => ifZero (fieldAt w 10 9) (c cc k (fieldAt w 0 5) (fieldAt w 5 5))

/-- RD: dreg `[4:0]`. -/
def formatRD (u : Reg → Instr) (c : Cond → CReg → Reg → Instr) (w : Word) : Decoded :=
  byForm w (ifZero (fieldAt w 5 20) (u (fieldAt w 0 5)))
    fun cc k => ifZero (fieldAt w 5 14) (c cc k (fieldAt w 0 5))

/-- RS: sreg1 `[9:5]`. -/
def formatRS (u : Reg → Instr) (c : Cond → CReg → Reg → Instr) (w : Word) : Decoded :=
  byForm w (ifZero (fieldAt w 10 15 ++ fieldAt w 0 5) (u (fieldAt w 5 5)))
    fun cc k => ifZero (fieldAt w 10 9 ++ fieldAt w 0 5) (c cc k (fieldAt w 5 5))

/-- I: imm15 `[24:10]` (conditional: imm9 `[18:10]`), sreg1 `[9:5]`, dreg `[4:0]`. -/
def formatI (u : Reg → Reg → BitVec 15 → Instr) (c : Cond → CReg → Reg → Reg → BitVec 9 → Instr)
    (w : Word) : Decoded :=
  byForm w (.ok (u (fieldAt w 0 5) (fieldAt w 5 5) (fieldAt w 10 15)))
    fun cc k => .ok (c cc k (fieldAt w 0 5) (fieldAt w 5 5) (fieldAt w 10 9))

/-- ST: imm15 `[24:10]` (conditional: imm9 `[18:10]`), sreg1 `[9:5]` (base), sreg2 `[4:0]` (data). -/
def formatST (u : Reg → Reg → BitVec 15 → Instr) (c : Cond → CReg → Reg → Reg → BitVec 9 → Instr)
    (w : Word) : Decoded :=
  byForm w (.ok (u (fieldAt w 0 5) (fieldAt w 5 5) (fieldAt w 10 15)))
    fun cc k => .ok (c cc k (fieldAt w 0 5) (fieldAt w 5 5) (fieldAt w 10 9))

/-- S6: imm6 `[15:10]`, sreg1 `[9:5]`, dreg `[4:0]`. -/
def formatS6 (u : Reg → Reg → BitVec 6 → Instr) (c : Cond → CReg → Reg → Reg → BitVec 6 → Instr)
    (w : Word) : Decoded :=
  byForm w (ifZero (fieldAt w 16 9) (u (fieldAt w 0 5) (fieldAt w 5 5) (fieldAt w 10 6)))
    fun cc k => ifZero (fieldAt w 16 3) (c cc k (fieldAt w 0 5) (fieldAt w 5 5) (fieldAt w 10 6))

/-- S5: imm5 `[14:10]`, sreg1 `[9:5]`, dreg `[4:0]`. -/
def formatS5 (u : Reg → Reg → BitVec 5 → Instr) (c : Cond → CReg → Reg → Reg → BitVec 5 → Instr)
    (w : Word) : Decoded :=
  byForm w (ifZero (fieldAt w 15 10) (u (fieldAt w 0 5) (fieldAt w 5 5) (fieldAt w 10 5)))
    fun cc k => ifZero (fieldAt w 15 4) (c cc k (fieldAt w 0 5) (fieldAt w 5 5) (fieldAt w 10 5))

/-- S2: imm2 `[11:10]`, sreg1 `[9:5]`, dreg `[4:0]`. -/
def formatS2 (u : Reg → Reg → BitVec 2 → Instr) (c : Cond → CReg → Reg → Reg → BitVec 2 → Instr)
    (w : Word) : Decoded :=
  byForm w (ifZero (fieldAt w 12 13) (u (fieldAt w 0 5) (fieldAt w 5 5) (fieldAt w 10 2)))
    fun cc k => ifZero (fieldAt w 12 7) (c cc k (fieldAt w 0 5) (fieldAt w 5 5) (fieldAt w 10 2))

/-- S1: imm1 `[10]`, sreg1 `[9:5]`, dreg `[4:0]`. -/
def formatS1 (u : Reg → Reg → BitVec 1 → Instr) (c : Cond → CReg → Reg → Reg → BitVec 1 → Instr)
    (w : Word) : Decoded :=
  byForm w (ifZero (fieldAt w 11 14) (u (fieldAt w 0 5) (fieldAt w 5 5) (fieldAt w 10 1)))
    fun cc k => ifZero (fieldAt w 11 8) (c cc k (fieldAt w 0 5) (fieldAt w 5 5) (fieldAt w 10 1))

/-- CPF: cpn `[11:10]`, cp_sreg `[9:5]`, dreg `[4:0]`; with cp_sreg = 0 the word is `movcfc` (R303, log entry 2). -/
def formatCPF (u : CopNum → Reg → Reg → Instr) (c : Cond → CReg → CopNum → Reg → Reg → Instr)
    (u0 : CopNum → Reg → Instr) (c0 : Cond → CReg → CopNum → Reg → Instr) (w : Word) : Decoded :=
  let n := fieldAt w 10 2
  let r := fieldAt w 5 5
  let d := fieldAt w 0 5
  byForm w (ifZero (fieldAt w 12 13) (if r = 0#5 then u0 n d else u n d r))
    fun cc k => ifZero (fieldAt w 12 7) (if r = 0#5 then c0 cc k n d else c cc k n d r)

/-- CPT: cpn `[11:10]`, sreg1 `[9:5]`, cp_dreg `[4:0]`; with cp_dreg = 0 the word is `movctc` (R305, log entry 2). -/
def formatCPT (u : CopNum → Reg → Reg → Instr) (c : Cond → CReg → CopNum → Reg → Reg → Instr)
    (u0 : CopNum → Reg → Instr) (c0 : Cond → CReg → CopNum → Reg → Instr) (w : Word) : Decoded :=
  let n := fieldAt w 10 2
  let a := fieldAt w 5 5
  let r := fieldAt w 0 5
  byForm w (ifZero (fieldAt w 12 13) (if r = 0#5 then u0 n a else u n r a))
    fun cc k => ifZero (fieldAt w 12 7) (if r = 0#5 then c0 cc k n a else c cc k n r a)

/-- SC: no field. -/
def formatSC (u : Instr) (c : Cond → CReg → Instr) (w : Word) : Decoded :=
  byForm w (ifZero (fieldAt w 0 25) u) fun cc k => ifZero (fieldAt w 0 19) (c cc k)

/-- B: creg `[24:22]`, imm22 `[21:0]`. -/
def formatB (u : CReg → BitVec 22 → Instr) (w : Word) : Decoded :=
  unconditional w (.ok (u (fieldAt w 22 3) (fieldAt w 0 22)))

/-- J: imm25 `[24:0]`. -/
def formatJ (u : BitVec 25 → Instr) (w : Word) : Decoded := unconditional w (.ok (u (fieldAt w 0 25)))

/-- CMP: creg `[24:22]`, sreg2 `[14:10]`, sreg1 `[9:5]`. -/
def formatCMP (u : CReg → Reg → Reg → Instr) (w : Word) : Decoded :=
  unconditional w
    (ifZero (fieldAt w 15 7 ++ fieldAt w 0 5) (u (fieldAt w 22 3) (fieldAt w 5 5) (fieldAt w 10 5)))

/-- CMPI: creg `[24:22]`, imm17 `[21:5]`, sreg1 `[4:0]`. -/
def formatCMPI (u : CReg → Reg → BitVec 17 → Instr) (w : Word) : Decoded :=
  unconditional w (.ok (u (fieldAt w 22 3) (fieldAt w 0 5) (fieldAt w 5 17)))

/-- LI: imm16 `[20:5]`, dreg `[4:0]`. -/
def formatLI (u : Reg → BitVec 16 → Instr) (w : Word) : Decoded :=
  unconditional w (ifZero (fieldAt w 21 4) (u (fieldAt w 0 5) (fieldAt w 5 16)))

/-- BFI: imm11 `[20:10]`, sreg1 `[9:5]`, dreg `[4:0]`. -/
def formatBFI (u : Reg → Reg → BitVec 11 → Instr) (w : Word) : Decoded :=
  unconditional w (ifZero (fieldAt w 21 4) (u (fieldAt w 0 5) (fieldAt w 5 5) (fieldAt w 10 11)))

/-- COP: imm1 `[25:24]`, imm2 `[23:0]`; it has no `cx` bit. -/
def formatCOP (u : CopNum → BitVec 24 → Instr) (w : Word) : Decoded := .ok (u (fieldAt w 24 2) (fieldAt w 0 24))

/-- ND: dreg `[4:0]`. -/
def formatND (u : Reg → Instr) (w : Word) : Decoded :=
  unconditional w (ifZero (fieldAt w 5 20) (u (fieldAt w 0 5)))

/-- NS: sreg1 `[9:5]`. -/
def formatNS (u : Reg → Instr) (w : Word) : Decoded :=
  unconditional w (ifZero (fieldAt w 10 15 ++ fieldAt w 0 5) (u (fieldAt w 5 5)))

/-- N2: imm2 `[1:0]`. -/
def formatN2 (u : BitVec 2 → Instr) (w : Word) : Decoded :=
  unconditional w (ifZero (fieldAt w 2 23) (u (fieldAt w 0 2)))

/-- N6: imm6 `[5:0]`. -/
def formatN6 (u : BitVec 6 → Instr) (w : Word) : Decoded :=
  unconditional w (ifZero (fieldAt w 6 19) (u (fieldAt w 0 6)))

/-- SYS: fn `[2:0]`, numbered by R112. -/
def formatSYS (w : Word) : Decoded :=
  unconditional w <|
    match (fieldAt w 0 3).toNat with
    | 0 => ifZero (fieldAt w 3 22) .di
    | 1 => ifZero (fieldAt w 3 22) .ei
    | 2 => ifZero (fieldAt w 3 22) .nop
    | 3 => ifZero (fieldAt w 3 22) .reti
    | 4 => ifZero (fieldAt w 3 22) .retu
    | 5 => ifZero (fieldAt w 3 22) .trap
    | _ => .error .function

/-! ### The formats of 16-bit mode (R103) -/

/-- r2: sr `[5:3]`, dr `[2:0]`. -/
def format_r2 (u : RegS → RegS → Instr) (h : Half) : Decoded :=
  ifZero (fieldAt h 6 4) (u (fieldAt h 0 3) (fieldAt h 3 3))

/-- c2: sr1 `[5:3]`, sr2 `[2:0]`. -/
def format_c2 (u : RegS → RegS → Instr) (h : Half) : Decoded :=
  ifZero (fieldAt h 6 4) (u (fieldAt h 3 3) (fieldAt h 0 3))

/-- rd: dr `[2:0]`. -/
def format_rd (u : RegS → Instr) (h : Half) : Decoded := ifZero (fieldAt h 3 7) (u (fieldAt h 0 3))

/-- rs: sr `[5:3]`. -/
def format_rs (u : RegS → Instr) (h : Half) : Decoded :=
  ifZero (fieldAt h 6 4 ++ fieldAt h 0 3) (u (fieldAt h 3 3))

/-- i7: imm7 `[9:3]`, dr `[2:0]`. -/
def format_i7 (u : RegS → BitVec 7 → Instr) (h : Half) : Decoded := .ok (u (fieldAt h 0 3) (fieldAt h 3 7))

/-- ci7: imm7 `[9:3]`, sr `[2:0]`. -/
def format_ci7 (u : RegS → BitVec 7 → Instr) (h : Half) : Decoded := .ok (u (fieldAt h 0 3) (fieldAt h 3 7))

/-- m4: imm4 `[9:6]`, sr `[5:3]` (base), dr `[2:0]`. -/
def format_m4 (u : RegS → RegS → BitVec 4 → Instr) (h : Half) : Decoded :=
  .ok (u (fieldAt h 0 3) (fieldAt h 3 3) (fieldAt h 6 4))

/-- st4: imm4 `[9:6]`, sr1 `[5:3]` (base), sr2 `[2:0]` (data). -/
def format_st4 (u : RegS → RegS → BitVec 4 → Instr) (h : Half) : Decoded :=
  .ok (u (fieldAt h 0 3) (fieldAt h 3 3) (fieldAt h 6 4))

/-- s6: imm6 `[8:3]`, dr `[2:0]`. -/
def format_s6 (u : RegS → BitVec 6 → Instr) (h : Half) : Decoded :=
  ifZero (fieldAt h 9 1) (u (fieldAt h 0 3) (fieldAt h 3 6))

/-- s5: imm5 `[7:3]`, dr `[2:0]`. -/
def format_s5 (u : RegS → BitVec 5 → Instr) (h : Half) : Decoded :=
  ifZero (fieldAt h 8 2) (u (fieldAt h 0 3) (fieldAt h 3 5))

/-- x2: imm2 `[7:6]`, sr `[5:3]`, dr `[2:0]`. -/
def format_x2 (u : RegS → RegS → BitVec 2 → Instr) (h : Half) : Decoded :=
  ifZero (fieldAt h 8 2) (u (fieldAt h 0 3) (fieldAt h 3 3) (fieldAt h 6 2))

/-- x1: imm1 `[6]`, sr `[5:3]`, dr `[2:0]`. -/
def format_x1 (u : RegS → RegS → BitVec 1 → Instr) (h : Half) : Decoded :=
  ifZero (fieldAt h 7 3) (u (fieldAt h 0 3) (fieldAt h 3 3) (fieldAt h 6 1))

/-- b10: imm10 `[9:0]`. -/
def format_b10 (u : BitVec 10 → Instr) (h : Half) : Decoded := .ok (u (fieldAt h 0 10))

/-- cpf: cpn `[9:8]`, cp_sreg `[7:3]`, dr `[2:0]`; with cp_sreg = 0 the halfword is `movcfc` (R303). -/
def format_cpf (u : CopNum → RegS → Reg → Instr) (u0 : CopNum → RegS → Instr) (h : Half) : Decoded :=
  let r := fieldAt h 3 5
  .ok (if r = 0#5 then u0 (fieldAt h 8 2) (fieldAt h 0 3) else u (fieldAt h 8 2) (fieldAt h 0 3) r)

/-- cpt: cpn `[9:8]`, cp_dreg `[7:3]`, sr `[2:0]`; with cp_dreg = 0 the halfword is `movctc` (R305). -/
def format_cpt (u : CopNum → Reg → RegS → Instr) (u0 : CopNum → RegS → Instr) (h : Half) : Decoded :=
  let r := fieldAt h 3 5
  .ok (if r = 0#5 then u0 (fieldAt h 8 2) (fieldAt h 0 3) else u (fieldAt h 8 2) r (fieldAt h 0 3))

/-- n2: imm2 `[1:0]`. -/
def format_n2 (u : BitVec 2 → Instr) (h : Half) : Decoded := ifZero (fieldAt h 2 8) (u (fieldAt h 0 2))

/-- n6: imm6 `[5:0]`. -/
def format_n6 (u : BitVec 6 → Instr) (h : Half) : Decoded := ifZero (fieldAt h 6 4) (u (fieldAt h 0 6))

/-- sc: no field. -/
def format_sc (u : Instr) (h : Half) : Decoded := ifZero (fieldAt h 0 10) u

/-- sys: fn `[2:0]`, numbered by R112. -/
def format_sys (h : Half) : Decoded :=
  match (fieldAt h 0 3).toNat with
  | 0 => ifZero (fieldAt h 3 7) .diShort
  | 1 => ifZero (fieldAt h 3 7) .eiShort
  | 2 => ifZero (fieldAt h 3 7) .nopShort
  | 3 => ifZero (fieldAt h 3 7) .retiShort
  | 4 => ifZero (fieldAt h 3 7) .retuShort
  | 5 => ifZero (fieldAt h 3 7) .trapShort
  | _ => .error .function

/-! ### The decoders -/

/-- The decoder of 32-bit mode: the opcode numbers of R110, the formats of R102, the illegal words of R120. -/
def decode32 (w : Word) : Decoded :=
  match opcode w with
  | 0 => formatR3 .add .addCond w
  | 1 => formatI .addi .addiCond w
  | 2 => formatI .addiu .addiuCond w
  | 3 => formatR3 .addu .adduCond w
  | 4 => formatR3 .and .andCond w
  | 5 => formatI .andi .andiCond w
  | 6 => formatB .bc w
  | 7 => formatB .begt w
  | 8 => formatB .belt w
  | 9 => formatB .beq w
  | 10 => formatB .bgt w
  | 11 => formatB .blt w
  | 12 => formatB .bne w
  | 13 => formatN2 .chrs w
  | 14 => formatCMP .cmp w
  | 15 => formatCMPI .cmpi w
  | 16 => formatR3 .conb .conbCond w
  | 17 => formatR3 .conh .conhCond w
  | 18 => formatCOP .cop w
  | 19 => formatS2 .exb .exbCond w
  | 20 => formatR3 .exbf .exbfCond w
  | 21 => formatBFI .exbfi w
  | 22 => formatS1 .exh .exhCond w
  | 23 => formatJ .jal w
  | 24 => formatRS .jalr .jalrCond w
  | 25 => formatJ .jmp w
  | 26 => formatRS .jmpr .jmprCond w
  | 27 => formatI .ld .ldCond w
  | 28 => formatLI .lli w
  | 29 => formatLI .lui w
  | 30 => formatR2 .mov .movCond w
  | 31 => formatCPF .movdfc .movdfcCond .movcfc .movcfcCond w
  | 32 => formatCPT .movdtc .movdtcCond .movctc .movctcCond w
  | 33 => formatRD .mulhi .mulhiCond w
  | 34 => formatI .muli .muliCond w
  | 35 => formatR3 .muls .mulsCond w
  | 36 => formatR3 .muls16 .muls16Cond w
  | 37 => formatR3 .mulu .muluCond w
  | 38 => formatR3 .mulu16 .mulu16Cond w
  | 39 => formatR3 .mulus .mulusCond w
  | 40 => formatR3 .mulus16 .mulus16Cond w
  | 41 => formatR2 .not .notCond w
  | 42 => formatR3 .or .orCond w
  | 43 => formatI .ori .oriCond w
  | 44 => formatNS .rcon w
  | 45 => formatSC .scall .scallCond w
  | 46 => formatND .scon w
  | 47 => formatR3 .sext .sextCond w
  | 48 => formatS5 .sexti .sextiCond w
  | 49 => formatR3 .sll .sllCond w
  | 50 => formatS6 .slli .slliCond w
  | 51 => formatR3 .sra .sraCond w
  | 52 => formatS6 .srai .sraiCond w
  | 53 => formatR3 .srl .srlCond w
  | 54 => formatS6 .srli .srliCond w
  | 55 => formatST .st .stCond w
  | 56 => formatR3 .sub .subCond w
  | 57 => formatR3 .subu .subuCond w
  | 58 => formatN6 .swm w
  | 59 => formatR3 .xor .xorCond w
  | 60 => formatSYS w
  | _ => .error .opcode

/-- The decoder of 16-bit mode: the opcode numbers of R110, the formats of R103, the illegal halfwords of R120. The
four instructions of 32-bit mode only (R17) have no 16-bit form. -/
def decode16 (h : Half) : Decoded :=
  match opcodeS h with
  | 0 => format_r2 .addShort h
  | 1 => format_i7 .addiShort h
  | 2 => format_i7 .addiuShort h
  | 3 => format_r2 .adduShort h
  | 4 => format_r2 .andShort h
  | 5 => format_i7 .andiShort h
  | 6 => format_b10 .bcShort h
  | 7 => format_b10 .begtShort h
  | 8 => format_b10 .beltShort h
  | 9 => format_b10 .beqShort h
  | 10 => format_b10 .bgtShort h
  | 11 => format_b10 .bltShort h
  | 12 => format_b10 .bneShort h
  | 13 => format_n2 .chrsShort h
  | 14 => format_c2 .cmpShort h
  | 15 => format_ci7 .cmpiShort h
  | 16 => format_r2 .conbShort h
  | 17 => format_r2 .conhShort h
  | 18 => .error .only32
  | 19 => format_x2 .exbShort h
  | 20 => format_r2 .exbfShort h
  | 21 => .error .only32
  | 22 => format_x1 .exhShort h
  | 23 => format_b10 .jalShort h
  | 24 => format_rs .jalrShort h
  | 25 => format_b10 .jmpShort h
  | 26 => format_rs .jmprShort h
  | 27 => format_m4 .ldShort h
  | 28 => .error .only32
  | 29 => .error .only32
  | 30 => format_r2 .movShort h
  | 31 => format_cpf .movdfcShort .movcfcShort h
  | 32 => format_cpt .movdtcShort .movctcShort h
  | 33 => format_rd .mulhiShort h
  | 34 => format_i7 .muliShort h
  | 35 => format_r2 .mulsShort h
  | 36 => format_r2 .muls16Short h
  | 37 => format_r2 .muluShort h
  | 38 => format_r2 .mulu16Short h
  | 39 => format_r2 .mulusShort h
  | 40 => format_r2 .mulus16Short h
  | 41 => format_r2 .notShort h
  | 42 => format_r2 .orShort h
  | 43 => format_i7 .oriShort h
  | 44 => format_rs .rconShort h
  | 45 => format_sc .scallShort h
  | 46 => format_rd .sconShort h
  | 47 => format_r2 .sextShort h
  | 48 => format_s5 .sextiShort h
  | 49 => format_r2 .sllShort h
  | 50 => format_s6 .slliShort h
  | 51 => format_r2 .sraShort h
  | 52 => format_s6 .sraiShort h
  | 53 => format_r2 .srlShort h
  | 54 => format_s6 .srliShort h
  | 55 => format_st4 .stShort h
  | 56 => format_r2 .subShort h
  | 57 => format_r2 .subuShort h
  | 58 => format_n6 .swmShort h
  | 59 => format_r2 .xorShort h
  | 60 => format_sys h
  | _ => .error .opcode

/-! ### Instruction words as bytes -/

/-- The bytes of a halfword in the order of their addresses: most significant first (R70, log entry 3). -/
def bytesOfHalf (h : Half) : List Byte := [fieldAt h 8 8, fieldAt h 0 8]

/-- The bytes of a 32-bit word in the order of their addresses: most significant first (R70, log entries 3 and 4). -/
def bytesOfWord (w : Word) : List Byte := [fieldAt w 24 8, fieldAt w 16 8, fieldAt w 8 8, fieldAt w 0 8]

/-- The bytes of an instruction (lowest address first) as an instruction of the given length mode, which alone tells
how many there are (R90). -/
def decode (il : ILen) (bytes : List Byte) : Decoded :=
  match il, bytes with
  | .il32, [a, b, c, d] => decode32 (toWord (a ++ b ++ c ++ d))
  | .il16, [a, b] => decode16 (toHalf (a ++ b))
  | _, _ => .error .size

/-! ### The encoder -/

/-- An instruction word: 16 bits in 16-bit mode, 32 bits in 32-bit mode (R90). -/
inductive Code where
  | word (w : Word)
  | half (h : Half)
  deriving DecidableEq, Repr

/-- `cx` = 1, then `cond` and `creg`: `W[25:19]` of a conditional form (R101). -/
def condField (cc : Cond) (k : CReg) : BitVec 7 := 1#1 ++ condBits cc ++ k

/-- Format R3 (R102). -/
def wordR3 (op : BitVec 6) (d a b : Reg) : Word := toWord (op ++ 0#11 ++ b ++ a ++ d)
/-- Format R3c (R102). -/
def wordR3c (op : BitVec 6) (cc : Cond) (k : CReg) (d a b : Reg) : Word :=
  toWord (op ++ condField cc k ++ 0#4 ++ b ++ a ++ d)
/-- Format R2 (R102). -/
def wordR2 (op : BitVec 6) (d a : Reg) : Word := toWord (op ++ 0#16 ++ a ++ d)
/-- Format R2c (R102). -/
def wordR2c (op : BitVec 6) (cc : Cond) (k : CReg) (d a : Reg) : Word := toWord (op ++ condField cc k ++ 0#9 ++ a ++ d)
/-- Format RD (R102). -/
def wordRD (op : BitVec 6) (d : Reg) : Word := toWord (op ++ 0#21 ++ d)
/-- Format RDc (R102). -/
def wordRDc (op : BitVec 6) (cc : Cond) (k : CReg) (d : Reg) : Word := toWord (op ++ condField cc k ++ 0#14 ++ d)
/-- Format RS (R102). -/
def wordRS (op : BitVec 6) (a : Reg) : Word := toWord (op ++ 0#16 ++ a ++ 0#5)
/-- Format RSc (R102). -/
def wordRSc (op : BitVec 6) (cc : Cond) (k : CReg) (a : Reg) : Word := toWord (op ++ condField cc k ++ 0#9 ++ a ++ 0#5)
/-- Format I (R102). -/
def wordI (op : BitVec 6) (d a : Reg) (imm : BitVec 15) : Word := toWord (op ++ 0#1 ++ imm ++ a ++ d)
/-- Format Ic (R102). -/
def wordIc (op : BitVec 6) (cc : Cond) (k : CReg) (d a : Reg) (imm : BitVec 9) : Word :=
  toWord (op ++ condField cc k ++ imm ++ a ++ d)
/-- Format ST (R102): `b` is the data register, `a` the base. -/
def wordST (op : BitVec 6) (b a : Reg) (imm : BitVec 15) : Word := toWord (op ++ 0#1 ++ imm ++ a ++ b)
/-- Format STc (R102). -/
def wordSTc (op : BitVec 6) (cc : Cond) (k : CReg) (b a : Reg) (imm : BitVec 9) : Word :=
  toWord (op ++ condField cc k ++ imm ++ a ++ b)
/-- Format S6 (R102). -/
def wordS6 (op : BitVec 6) (d a : Reg) (imm : BitVec 6) : Word := toWord (op ++ 0#10 ++ imm ++ a ++ d)
/-- Format S6c (R102). -/
def wordS6c (op : BitVec 6) (cc : Cond) (k : CReg) (d a : Reg) (imm : BitVec 6) : Word :=
  toWord (op ++ condField cc k ++ 0#3 ++ imm ++ a ++ d)
/-- Format S5 (R102). -/
def wordS5 (op : BitVec 6) (d a : Reg) (imm : BitVec 5) : Word := toWord (op ++ 0#11 ++ imm ++ a ++ d)
/-- Format S5c (R102). -/
def wordS5c (op : BitVec 6) (cc : Cond) (k : CReg) (d a : Reg) (imm : BitVec 5) : Word :=
  toWord (op ++ condField cc k ++ 0#4 ++ imm ++ a ++ d)
/-- Format S2 (R102). -/
def wordS2 (op : BitVec 6) (d a : Reg) (imm : BitVec 2) : Word := toWord (op ++ 0#14 ++ imm ++ a ++ d)
/-- Format S2c (R102). -/
def wordS2c (op : BitVec 6) (cc : Cond) (k : CReg) (d a : Reg) (imm : BitVec 2) : Word :=
  toWord (op ++ condField cc k ++ 0#7 ++ imm ++ a ++ d)
/-- Format S1 (R102). -/
def wordS1 (op : BitVec 6) (d a : Reg) (imm : BitVec 1) : Word := toWord (op ++ 0#15 ++ imm ++ a ++ d)
/-- Format S1c (R102). -/
def wordS1c (op : BitVec 6) (cc : Cond) (k : CReg) (d a : Reg) (imm : BitVec 1) : Word :=
  toWord (op ++ condField cc k ++ 0#8 ++ imm ++ a ++ d)
/-- Format CPF (R102): `r` is the coprocessor register. -/
def wordCPF (op : BitVec 6) (n : CopNum) (d r : Reg) : Word := toWord (op ++ 0#14 ++ n ++ r ++ d)
/-- Format CPFc (R102). -/
def wordCPFc (op : BitVec 6) (cc : Cond) (k : CReg) (n : CopNum) (d r : Reg) : Word :=
  toWord (op ++ condField cc k ++ 0#7 ++ n ++ r ++ d)
/-- Format CPT (R102): `r` is the coprocessor register. -/
def wordCPT (op : BitVec 6) (n : CopNum) (r a : Reg) : Word := toWord (op ++ 0#14 ++ n ++ a ++ r)
/-- Format CPTc (R102). -/
def wordCPTc (op : BitVec 6) (cc : Cond) (k : CReg) (n : CopNum) (r a : Reg) : Word :=
  toWord (op ++ condField cc k ++ 0#7 ++ n ++ a ++ r)
/-- Format SC (R102). -/
def wordSC (op : BitVec 6) : Word := toWord (op ++ 0#26)
/-- Format SCc (R102). -/
def wordSCc (op : BitVec 6) (cc : Cond) (k : CReg) : Word := toWord (op ++ condField cc k ++ 0#19)
/-- Format B (R102). -/
def wordB (op : BitVec 6) (k : CReg) (imm : BitVec 22) : Word := toWord (op ++ 0#1 ++ k ++ imm)
/-- Format J (R102). -/
def wordJ (op : BitVec 6) (imm : BitVec 25) : Word := toWord (op ++ 0#1 ++ imm)
/-- Format CMP (R102). -/
def wordCMP (op : BitVec 6) (k : CReg) (a b : Reg) : Word := toWord (op ++ 0#1 ++ k ++ 0#7 ++ b ++ a ++ 0#5)
/-- Format CMPI (R102). -/
def wordCMPI (op : BitVec 6) (k : CReg) (a : Reg) (imm : BitVec 17) : Word := toWord (op ++ 0#1 ++ k ++ imm ++ a)
/-- Format LI (R102). -/
def wordLI (op : BitVec 6) (d : Reg) (imm : BitVec 16) : Word := toWord (op ++ 0#5 ++ imm ++ d)
/-- Format BFI (R102). -/
def wordBFI (op : BitVec 6) (d a : Reg) (imm : BitVec 11) : Word := toWord (op ++ 0#5 ++ imm ++ a ++ d)
/-- Format COP (R102). -/
def wordCOP (n : CopNum) (w : BitVec 24) : Word := toWord (18#6 ++ n ++ w)
/-- Format ND (R102). -/
def wordND (op : BitVec 6) (d : Reg) : Word := toWord (op ++ 0#21 ++ d)
/-- Format NS (R102). -/
def wordNS (op : BitVec 6) (a : Reg) : Word := toWord (op ++ 0#16 ++ a ++ 0#5)
/-- Format N2 (R102). -/
def wordN2 (op : BitVec 6) (imm : BitVec 2) : Word := toWord (op ++ 0#24 ++ imm)
/-- Format N6 (R102). -/
def wordN6 (op : BitVec 6) (imm : BitVec 6) : Word := toWord (op ++ 0#20 ++ imm)
/-- Format SYS (R102, R112). -/
def wordSYS (fn : BitVec 3) : Word := toWord (60#6 ++ 0#23 ++ fn)

/-- Format r2 (R103). -/
def half_r2 (op : BitVec 6) (d a : RegS) : Half := toHalf (op ++ 0#4 ++ a ++ d)
/-- Format c2 (R103). -/
def half_c2 (op : BitVec 6) (a b : RegS) : Half := toHalf (op ++ 0#4 ++ a ++ b)
/-- Format rd (R103). -/
def half_rd (op : BitVec 6) (d : RegS) : Half := toHalf (op ++ 0#7 ++ d)
/-- Format rs (R103). -/
def half_rs (op : BitVec 6) (a : RegS) : Half := toHalf (op ++ 0#4 ++ a ++ 0#3)
/-- Format i7 (R103). -/
def half_i7 (op : BitVec 6) (d : RegS) (imm : BitVec 7) : Half := toHalf (op ++ imm ++ d)
/-- Format ci7 (R103). -/
def half_ci7 (op : BitVec 6) (a : RegS) (imm : BitVec 7) : Half := toHalf (op ++ imm ++ a)
/-- Format m4 (R103). -/
def half_m4 (op : BitVec 6) (d a : RegS) (imm : BitVec 4) : Half := toHalf (op ++ imm ++ a ++ d)
/-- Format st4 (R103): `b` is the data register, `a` the base. -/
def half_st4 (op : BitVec 6) (b a : RegS) (imm : BitVec 4) : Half := toHalf (op ++ imm ++ a ++ b)
/-- Format s6 (R103). -/
def half_s6 (op : BitVec 6) (d : RegS) (imm : BitVec 6) : Half := toHalf (op ++ 0#1 ++ imm ++ d)
/-- Format s5 (R103). -/
def half_s5 (op : BitVec 6) (d : RegS) (imm : BitVec 5) : Half := toHalf (op ++ 0#2 ++ imm ++ d)
/-- Format x2 (R103). -/
def half_x2 (op : BitVec 6) (d a : RegS) (imm : BitVec 2) : Half := toHalf (op ++ 0#2 ++ imm ++ a ++ d)
/-- Format x1 (R103). -/
def half_x1 (op : BitVec 6) (d a : RegS) (imm : BitVec 1) : Half := toHalf (op ++ 0#3 ++ imm ++ a ++ d)
/-- Format b10 (R103). -/
def half_b10 (op : BitVec 6) (imm : BitVec 10) : Half := toHalf (op ++ imm)
/-- Format cpf (R103). -/
def half_cpf (op : BitVec 6) (n : CopNum) (d : RegS) (r : Reg) : Half := toHalf (op ++ n ++ r ++ d)
/-- Format cpt (R103). -/
def half_cpt (op : BitVec 6) (n : CopNum) (r : Reg) (a : RegS) : Half := toHalf (op ++ n ++ r ++ a)
/-- Format n2 (R103). -/
def half_n2 (op : BitVec 6) (imm : BitVec 2) : Half := toHalf (op ++ 0#8 ++ imm)
/-- Format n6 (R103). -/
def half_n6 (op : BitVec 6) (imm : BitVec 6) : Half := toHalf (op ++ 0#4 ++ imm)
/-- Format sc (R103). -/
def half_sc (op : BitVec 6) : Half := toHalf (op ++ 0#10)
/-- Format sys (R103, R112). -/
def half_sys (fn : BitVec 3) : Half := toHalf (60#6 ++ 0#7 ++ fn)

/-- The instruction word of an instruction, from the tables of R102, R103 and R110. -/
def encodeWord : Instr → Code
  | .add dreg sreg1 sreg2 => .word (wordR3 0#6 dreg sreg1 sreg2)
  | .addCond cond creg dreg sreg1 sreg2 => .word (wordR3c 0#6 cond creg dreg sreg1 sreg2)
  | .addShort dr sr => .half (half_r2 0#6 dr sr)
  | .addi dreg sreg1 imm => .word (wordI 1#6 dreg sreg1 imm)
  | .addiCond cond creg dreg sreg1 imm => .word (wordIc 1#6 cond creg dreg sreg1 imm)
  | .addiShort dr imm => .half (half_i7 1#6 dr imm)
  | .addiu dreg sreg1 imm => .word (wordI 2#6 dreg sreg1 imm)
  | .addiuCond cond creg dreg sreg1 imm => .word (wordIc 2#6 cond creg dreg sreg1 imm)
  | .addiuShort dr imm => .half (half_i7 2#6 dr imm)
  | .addu dreg sreg1 sreg2 => .word (wordR3 3#6 dreg sreg1 sreg2)
  | .adduCond cond creg dreg sreg1 sreg2 => .word (wordR3c 3#6 cond creg dreg sreg1 sreg2)
  | .adduShort dr sr => .half (half_r2 3#6 dr sr)
  | .and dreg sreg1 sreg2 => .word (wordR3 4#6 dreg sreg1 sreg2)
  | .andCond cond creg dreg sreg1 sreg2 => .word (wordR3c 4#6 cond creg dreg sreg1 sreg2)
  | .andShort dr sr => .half (half_r2 4#6 dr sr)
  | .andi dreg sreg1 imm => .word (wordI 5#6 dreg sreg1 imm)
  | .andiCond cond creg dreg sreg1 imm => .word (wordIc 5#6 cond creg dreg sreg1 imm)
  | .andiShort dr imm => .half (half_i7 5#6 dr imm)
  | .bc creg imm => .word (wordB 6#6 creg imm)
  | .bcShort imm => .half (half_b10 6#6 imm)
  | .begt creg imm => .word (wordB 7#6 creg imm)
  | .begtShort imm => .half (half_b10 7#6 imm)
  | .belt creg imm => .word (wordB 8#6 creg imm)
  | .beltShort imm => .half (half_b10 8#6 imm)
  | .beq creg imm => .word (wordB 9#6 creg imm)
  | .beqShort imm => .half (half_b10 9#6 imm)
  | .bgt creg imm => .word (wordB 10#6 creg imm)
  | .bgtShort imm => .half (half_b10 10#6 imm)
  | .blt creg imm => .word (wordB 11#6 creg imm)
  | .bltShort imm => .half (half_b10 11#6 imm)
  | .bne creg imm => .word (wordB 12#6 creg imm)
  | .bneShort imm => .half (half_b10 12#6 imm)
  | .chrs imm => .word (wordN2 13#6 imm)
  | .chrsShort imm => .half (half_n2 13#6 imm)
  | .cmp creg sreg1 sreg2 => .word (wordCMP 14#6 creg sreg1 sreg2)
  | .cmpShort sr1 sr2 => .half (half_c2 14#6 sr1 sr2)
  | .cmpi creg sreg1 imm => .word (wordCMPI 15#6 creg sreg1 imm)
  | .cmpiShort sr imm => .half (half_ci7 15#6 sr imm)
  | .conb dreg sreg1 sreg2 => .word (wordR3 16#6 dreg sreg1 sreg2)
  | .conbCond cond creg dreg sreg1 sreg2 => .word (wordR3c 16#6 cond creg dreg sreg1 sreg2)
  | .conbShort dr sr => .half (half_r2 16#6 dr sr)
  | .conh dreg sreg1 sreg2 => .word (wordR3 17#6 dreg sreg1 sreg2)
  | .conhCond cond creg dreg sreg1 sreg2 => .word (wordR3c 17#6 cond creg dreg sreg1 sreg2)
  | .conhShort dr sr => .half (half_r2 17#6 dr sr)
  | .cop imm1 imm2 => .word (wordCOP imm1 imm2)
  | .di => .word (wordSYS 0#3)
  | .diShort => .half (half_sys 0#3)
  | .ei => .word (wordSYS 1#3)
  | .eiShort => .half (half_sys 1#3)
  | .exb dreg sreg1 imm => .word (wordS2 19#6 dreg sreg1 imm)
  | .exbCond cond creg dreg sreg1 imm => .word (wordS2c 19#6 cond creg dreg sreg1 imm)
  | .exbShort dr sr imm => .half (half_x2 19#6 dr sr imm)
  | .exbf dreg sreg1 sreg2 => .word (wordR3 20#6 dreg sreg1 sreg2)
  | .exbfCond cond creg dreg sreg1 sreg2 => .word (wordR3c 20#6 cond creg dreg sreg1 sreg2)
  | .exbfShort dr sr => .half (half_r2 20#6 dr sr)
  | .exbfi dreg sreg1 imm => .word (wordBFI 21#6 dreg sreg1 imm)
  | .exh dreg sreg1 imm => .word (wordS1 22#6 dreg sreg1 imm)
  | .exhCond cond creg dreg sreg1 imm => .word (wordS1c 22#6 cond creg dreg sreg1 imm)
  | .exhShort dr sr imm => .half (half_x1 22#6 dr sr imm)
  | .jal imm => .word (wordJ 23#6 imm)
  | .jalShort imm => .half (half_b10 23#6 imm)
  | .jalr sreg1 => .word (wordRS 24#6 sreg1)
  | .jalrCond cond creg sreg1 => .word (wordRSc 24#6 cond creg sreg1)
  | .jalrShort sr => .half (half_rs 24#6 sr)
  | .jmp imm => .word (wordJ 25#6 imm)
  | .jmpShort imm => .half (half_b10 25#6 imm)
  | .jmpr sreg1 => .word (wordRS 26#6 sreg1)
  | .jmprCond cond creg sreg1 => .word (wordRSc 26#6 cond creg sreg1)
  | .jmprShort sr => .half (half_rs 26#6 sr)
  | .ld dreg sreg1 imm => .word (wordI 27#6 dreg sreg1 imm)
  | .ldCond cond creg dreg sreg1 imm => .word (wordIc 27#6 cond creg dreg sreg1 imm)
  | .ldShort dr sr imm => .half (half_m4 27#6 dr sr imm)
  | .lli dreg imm => .word (wordLI 28#6 dreg imm)
  | .lui dreg imm => .word (wordLI 29#6 dreg imm)
  | .mov dreg sreg1 => .word (wordR2 30#6 dreg sreg1)
  | .movCond cond creg dreg sreg1 => .word (wordR2c 30#6 cond creg dreg sreg1)
  | .movShort dr sr => .half (half_r2 30#6 dr sr)
  | .movcfc cpn dreg => .word (wordCPF 31#6 cpn dreg 0#5)
  | .movcfcCond cond creg cpn dreg => .word (wordCPFc 31#6 cond creg cpn dreg 0#5)
  | .movcfcShort cpn dr => .half (half_cpf 31#6 cpn dr 0#5)
  | .movctc cpn sreg1 => .word (wordCPT 32#6 cpn 0#5 sreg1)
  | .movctcCond cond creg cpn sreg1 => .word (wordCPTc 32#6 cond creg cpn 0#5 sreg1)
  | .movctcShort cpn sr => .half (half_cpt 32#6 cpn 0#5 sr)
  | .movdfc cpn dreg cpSreg => .word (wordCPF 31#6 cpn dreg cpSreg)
  | .movdfcCond cond creg cpn dreg cpSreg => .word (wordCPFc 31#6 cond creg cpn dreg cpSreg)
  | .movdfcShort cpn dr cpSreg => .half (half_cpf 31#6 cpn dr cpSreg)
  | .movdtc cpn cpDreg sreg1 => .word (wordCPT 32#6 cpn cpDreg sreg1)
  | .movdtcCond cond creg cpn cpDreg sreg1 => .word (wordCPTc 32#6 cond creg cpn cpDreg sreg1)
  | .movdtcShort cpn cpDreg sr => .half (half_cpt 32#6 cpn cpDreg sr)
  | .mulhi dreg => .word (wordRD 33#6 dreg)
  | .mulhiCond cond creg dreg => .word (wordRDc 33#6 cond creg dreg)
  | .mulhiShort dr => .half (half_rd 33#6 dr)
  | .muli dreg sreg1 imm => .word (wordI 34#6 dreg sreg1 imm)
  | .muliCond cond creg dreg sreg1 imm => .word (wordIc 34#6 cond creg dreg sreg1 imm)
  | .muliShort dr imm => .half (half_i7 34#6 dr imm)
  | .muls dreg sreg1 sreg2 => .word (wordR3 35#6 dreg sreg1 sreg2)
  | .mulsCond cond creg dreg sreg1 sreg2 => .word (wordR3c 35#6 cond creg dreg sreg1 sreg2)
  | .mulsShort dr sr => .half (half_r2 35#6 dr sr)
  | .muls16 dreg sreg1 sreg2 => .word (wordR3 36#6 dreg sreg1 sreg2)
  | .muls16Cond cond creg dreg sreg1 sreg2 => .word (wordR3c 36#6 cond creg dreg sreg1 sreg2)
  | .muls16Short dr sr => .half (half_r2 36#6 dr sr)
  | .mulu dreg sreg1 sreg2 => .word (wordR3 37#6 dreg sreg1 sreg2)
  | .muluCond cond creg dreg sreg1 sreg2 => .word (wordR3c 37#6 cond creg dreg sreg1 sreg2)
  | .muluShort dr sr => .half (half_r2 37#6 dr sr)
  | .mulu16 dreg sreg1 sreg2 => .word (wordR3 38#6 dreg sreg1 sreg2)
  | .mulu16Cond cond creg dreg sreg1 sreg2 => .word (wordR3c 38#6 cond creg dreg sreg1 sreg2)
  | .mulu16Short dr sr => .half (half_r2 38#6 dr sr)
  | .mulus dreg sreg1 sreg2 => .word (wordR3 39#6 dreg sreg1 sreg2)
  | .mulusCond cond creg dreg sreg1 sreg2 => .word (wordR3c 39#6 cond creg dreg sreg1 sreg2)
  | .mulusShort dr sr => .half (half_r2 39#6 dr sr)
  | .mulus16 dreg sreg1 sreg2 => .word (wordR3 40#6 dreg sreg1 sreg2)
  | .mulus16Cond cond creg dreg sreg1 sreg2 => .word (wordR3c 40#6 cond creg dreg sreg1 sreg2)
  | .mulus16Short dr sr => .half (half_r2 40#6 dr sr)
  | .nop => .word (wordSYS 2#3)
  | .nopShort => .half (half_sys 2#3)
  | .not dreg sreg1 => .word (wordR2 41#6 dreg sreg1)
  | .notCond cond creg dreg sreg1 => .word (wordR2c 41#6 cond creg dreg sreg1)
  | .notShort dr sr => .half (half_r2 41#6 dr sr)
  | .or dreg sreg1 sreg2 => .word (wordR3 42#6 dreg sreg1 sreg2)
  | .orCond cond creg dreg sreg1 sreg2 => .word (wordR3c 42#6 cond creg dreg sreg1 sreg2)
  | .orShort dr sr => .half (half_r2 42#6 dr sr)
  | .ori dreg sreg1 imm => .word (wordI 43#6 dreg sreg1 imm)
  | .oriCond cond creg dreg sreg1 imm => .word (wordIc 43#6 cond creg dreg sreg1 imm)
  | .oriShort dr imm => .half (half_i7 43#6 dr imm)
  | .rcon sreg1 => .word (wordNS 44#6 sreg1)
  | .rconShort sr => .half (half_rs 44#6 sr)
  | .reti => .word (wordSYS 3#3)
  | .retiShort => .half (half_sys 3#3)
  | .retu => .word (wordSYS 4#3)
  | .retuShort => .half (half_sys 4#3)
  | .scall => .word (wordSC 45#6)
  | .scallCond cond creg => .word (wordSCc 45#6 cond creg)
  | .scallShort => .half (half_sc 45#6)
  | .scon dreg => .word (wordND 46#6 dreg)
  | .sconShort dr => .half (half_rd 46#6 dr)
  | .sext dreg sreg1 sreg2 => .word (wordR3 47#6 dreg sreg1 sreg2)
  | .sextCond cond creg dreg sreg1 sreg2 => .word (wordR3c 47#6 cond creg dreg sreg1 sreg2)
  | .sextShort dr sr => .half (half_r2 47#6 dr sr)
  | .sexti dreg sreg1 imm => .word (wordS5 48#6 dreg sreg1 imm)
  | .sextiCond cond creg dreg sreg1 imm => .word (wordS5c 48#6 cond creg dreg sreg1 imm)
  | .sextiShort dr imm => .half (half_s5 48#6 dr imm)
  | .sll dreg sreg1 sreg2 => .word (wordR3 49#6 dreg sreg1 sreg2)
  | .sllCond cond creg dreg sreg1 sreg2 => .word (wordR3c 49#6 cond creg dreg sreg1 sreg2)
  | .sllShort dr sr => .half (half_r2 49#6 dr sr)
  | .slli dreg sreg1 imm => .word (wordS6 50#6 dreg sreg1 imm)
  | .slliCond cond creg dreg sreg1 imm => .word (wordS6c 50#6 cond creg dreg sreg1 imm)
  | .slliShort dr imm => .half (half_s6 50#6 dr imm)
  | .sra dreg sreg1 sreg2 => .word (wordR3 51#6 dreg sreg1 sreg2)
  | .sraCond cond creg dreg sreg1 sreg2 => .word (wordR3c 51#6 cond creg dreg sreg1 sreg2)
  | .sraShort dr sr => .half (half_r2 51#6 dr sr)
  | .srai dreg sreg1 imm => .word (wordS6 52#6 dreg sreg1 imm)
  | .sraiCond cond creg dreg sreg1 imm => .word (wordS6c 52#6 cond creg dreg sreg1 imm)
  | .sraiShort dr imm => .half (half_s6 52#6 dr imm)
  | .srl dreg sreg1 sreg2 => .word (wordR3 53#6 dreg sreg1 sreg2)
  | .srlCond cond creg dreg sreg1 sreg2 => .word (wordR3c 53#6 cond creg dreg sreg1 sreg2)
  | .srlShort dr sr => .half (half_r2 53#6 dr sr)
  | .srli dreg sreg1 imm => .word (wordS6 54#6 dreg sreg1 imm)
  | .srliCond cond creg dreg sreg1 imm => .word (wordS6c 54#6 cond creg dreg sreg1 imm)
  | .srliShort dr imm => .half (half_s6 54#6 dr imm)
  | .st sreg2 sreg1 imm => .word (wordST 55#6 sreg2 sreg1 imm)
  | .stCond cond creg sreg2 sreg1 imm => .word (wordSTc 55#6 cond creg sreg2 sreg1 imm)
  | .stShort sr2 sr1 imm => .half (half_st4 55#6 sr2 sr1 imm)
  | .sub dreg sreg1 sreg2 => .word (wordR3 56#6 dreg sreg1 sreg2)
  | .subCond cond creg dreg sreg1 sreg2 => .word (wordR3c 56#6 cond creg dreg sreg1 sreg2)
  | .subShort dr sr => .half (half_r2 56#6 dr sr)
  | .subu dreg sreg1 sreg2 => .word (wordR3 57#6 dreg sreg1 sreg2)
  | .subuCond cond creg dreg sreg1 sreg2 => .word (wordR3c 57#6 cond creg dreg sreg1 sreg2)
  | .subuShort dr sr => .half (half_r2 57#6 dr sr)
  | .swm imm => .word (wordN6 58#6 imm)
  | .swmShort imm => .half (half_n6 58#6 imm)
  | .trap => .word (wordSYS 5#3)
  | .trapShort => .half (half_sys 5#3)
  | .xor dreg sreg1 sreg2 => .word (wordR3 59#6 dreg sreg1 sreg2)
  | .xorCond cond creg dreg sreg1 sreg2 => .word (wordR3c 59#6 cond creg dreg sreg1 sreg2)
  | .xorShort dr sr => .half (half_r2 59#6 dr sr)

/-- The bytes of an instruction word, lowest address first. -/
def Code.bytes : Code → List Byte
  | .word w => bytesOfWord w
  | .half h => bytesOfHalf h

/-- The encoder: the bytes of an instruction, lowest address first. -/
def encode (i : Instr) : List Byte := (encodeWord i).bytes

/-- How many bytes an instruction of a length mode has (R90). -/
def ILen.bytes : ILen → Nat
  | .il16 => 2
  | .il32 => 4

/-- The length mode of an opcode-table row of `nbits` bits: 16 bits in 16-bit mode, 32 bits in 32-bit mode (R90). -/
def modeOfBits (nbits : Nat) : ILen := if nbits ≤ 16 then .il16 else .il32

/-- The bytes, as the hardware stores them, of the instruction whose bits are `w`. -/
def bytesOfBits (nbits w : Nat) : List Byte :=
  match modeOfBits nbits with
  | .il16 => bytesOfHalf (BitVec.ofNat 16 w)
  | .il32 => bytesOfWord (BitVec.ofNat 32 w)

/-- The instruction the decoder reads from an opcode-table row's word `w` of `nbits` bits. -/
def decodeTableWord (nbits w : Nat) : Option Instr :=
  match decode (modeOfBits nbits) (bytesOfBits nbits w) with
  | .ok i => some i
  | .error _ => none

end Sys2Proof
end

