-- ==== Sys2Proof/Machine/State.lean ====
section
/-! DEFINITION. The state of the machine, all that spec/10_state.md gives it (R39), as plain data; the reasons a step can
stop; and the state right after reset (R50, R370). -/

namespace Sys2Proof.Machine

/-- The two privilege modes, the values of PSR.UM (R30, R345). -/
inductive Priv where
  /-- user mode -/
  | user
  /-- super user mode -/
  | super
  deriving DecidableEq, Repr

/-- The two sets of general registers, the values of PSR.RSRD and PSR.RSWR (R20, R22). -/
inductive RegSet where
  /-- set 1, the user set -/
  | set1
  /-- set 2, the super user set -/
  | set2
  deriving DecidableEq, Repr

/-- The processor status register: five fields (R30). Their places in a word are not observable (log entry 23). -/
structure PSR where
  /-- The privilege mode. -/
  um : Priv
  /-- Maskable interrupts are enabled. -/
  ie : Bool
  /-- The instruction-length mode. -/
  il : ILen
  /-- The register set that reads name. -/
  rsrd : RegSet
  /-- The register set that writes name. -/
  rswr : RegSet
  deriving DecidableEq, Repr

/-- The PSR of super user code at its start: 32-bit mode, interrupts disabled, super user set for reads and writes (R31,
R280, R324, R332). -/
def PSR.superEntry : PSR := { um := .super, ie := false, il := .il32, rsrd := .set2, rswr := .set2 }

/-- The three flags of a condition register (R28). -/
structure Flags where
  /-- zero -/
  z : Bool
  /-- negative -/
  n : Bool
  /-- carry -/
  c : Bool
  deriving DecidableEq, Repr

/-- `Transfer(target, newPSR, mustBeNop)`: what a slot-bearing instruction leaves for its slot (R27). -/
structure Transfer where
  /-- Where control goes after the slot; none where the transfer does not happen. -/
  target : Option Word
  /-- The PSR after the slot, where it changes. -/
  newPSR : Option PSR
  /-- The slot has to be a `nop`. -/
  mustBeNop : Bool
  deriving DecidableEq, Repr

/-- One entry of the hardware stack: the interrupted (PC, PSR) pair (R34). -/
structure StackEntry where
  /-- The address to resume at. -/
  pc : Word
  /-- The PSR to resume with. -/
  psr : PSR
  deriving DecidableEq, Repr

/-- A memory: the bytes that hold a value, by address, addresses strictly rising. An address not listed holds no
value (R50, log entries 5 and 22). -/
abbrev Memory := List Host.Cell

/-- Bytes `base` ... `base + size - 1` of the data address space. -/
structure Region where
  base : Nat
  size : Nat
  deriving DecidableEq, Repr

/-- The parameter `UNIFIED_MEMORY`: whether a store can change what is fetched (R5, R72). -/
inductive Unified where
  /-- Known false: instruction and data memory are separate. -/
  | separate
  /-- Known true. -/
  | unified
  /-- Not known. -/
  | unknown
  deriving DecidableEq, Repr

/-- The parameters that come with a platform and a launch image (R5). No instruction changes them. -/
structure Platform where
  /-- `DValid`: the parts of the data space that hold memory (R65, log entry 18). -/
  regions : List Region
  /-- `UNIFIED_MEMORY` (R72, log entry 19). -/
  unified : Unified
  /-- `Coprocessor(n)`: whether a coprocessor is attached at number `n` (R300, log entry 17). -/
  attached : Vector Bool 4
  deriving DecidableEq, Repr

/-- What the environment does at one instruction boundary (R330, R331, log entry 16). -/
structure Boundary where
  /-- The interrupt sources that request service. -/
  requests : List Nat
  /-- Whether an interrupt that is due is taken here. -/
  take : Bool
  deriving DecidableEq, Repr

/-- The state of the machine (R39). -/
structure State where
  /-- General registers, set 1 (R20). -/
  set1 : Vector Word 32
  /-- General registers, set 2 (R20). -/
  set2 : Vector Word 32
  /-- The program counter (R26). -/
  pc : Word
  /-- The pending transfer of a branch slot (R27). -/
  pend : Option Transfer
  /-- The condition registers (R28). -/
  cregs : Vector Flags 8
  /-- The processor status register (R30). -/
  psr : PSR
  /-- PSR_2, the copy `scall` makes (R32). -/
  psr2 : PSR
  /-- The address of the instruction that raised the last exception (R33). -/
  epc : Word
  /-- The hardware stack, newest entry first (R34). -/
  hwstack : List StackEntry
  /-- `mulhi_latch`: the upper half of the product the previous instruction made, if it made one (R35). -/
  mulhi : Option Word
  /-- The pending interrupt sources, strictly rising (R37). -/
  intpend : List Nat
  /-- Data memory (R63). -/
  dmem : Memory
  /-- Instruction memory (R70). -/
  imem : Memory
  /-- The operations issued to the coprocessors, oldest first (R300, R306). -/
  copLog : List CopOp
  /-- The platform and launch parameters (R5). -/
  platform : Platform
  /-- THE MODEL'S OWN FIELD: the environment's script, one element per instruction boundary (log entry 16). -/
  env : List Boundary
  deriving DecidableEq, Repr

/-- The faults: an access that finds no memory or no value. All are safe: the machine stops where the spec has no step. -/
inductive Fault where
  /-- Raised by `ld` of a data word that nothing has written and no launch image holds (R25, R261, R340
  `UninitialisedRegister`; log entry 5). Safe. -/
  | uninitialisedData
  /-- Raised by `ld` and `st` where `DValid` is false (R65, R340 `DataAddressInvalid`; log entry 18). Safe. -/
  | dataAddressInvalid
  /-- Raised by the fetch where instruction memory is not defined (R73; log entry 22). Safe. -/
  | undefinedFetch
  deriving DecidableEq, Repr

/-- The refusals: situations to which the spec gives no meaning (R340, log entry 21). All are safe: a run that needs to go
on proves nothing. -/
inductive Refusal where
  /-- Raised by `exec` for an instruction that has no meaning yet. Safe. -/
  | notModelled (mnemonic : String)
  /-- Raised by the fetch: `pc` is no multiple of the instruction length (R71). Safe. -/
  | misalignedFetch
  /-- Raised by the fetch: the word decodes to nothing (R120). Safe. -/
  | illegalEncoding (why : Illegal)
  /-- Raised by a slot-bearing instruction in a slot (R234 c). Safe. -/
  | transferInSlot
  /-- Raised by an instruction other than `nop` in the slot of `scall`, `retu`, `reti` or `swm` (R234 b). Safe. -/
  | slotMustBeNop
  /-- Raised by an instruction that raises an exception in a slot (R234 c). Safe. -/
  | exceptionInSlot
  /-- Raised by a test of `lt`, `egt`, `gt` or `elt` on Z = N = 1 (R230). Safe. -/
  | conditionOnInconsistentFlags
  /-- Raised by `mulhi` not directly after a 32-bit multiplication (R218). Safe. -/
  | mulhiWithoutMultiply
  /-- Raised by `slli`, `srli`, `srai` with an immediate of 33...63 (R189). Safe. -/
  | shiftImmediateRange
  /-- Raised by `st` into the program text, unless the memories are known to be separate (R72). Safe. -/
  | storeToCode
  /-- Raised by `di`, `ei`, `reti`, `retu` in user mode (R270). Safe. -/
  | privilegedInUserMode
  /-- Raised by `reti` on an empty hardware stack (R282). Safe. -/
  | hwStackUnderflow
  /-- Raised by an interrupt on a full hardware stack (R332). Safe. -/
  | hwStackOverflow
  /-- Raised by a coprocessor instruction with nothing attached at that number (R300). Safe. -/
  | noCoprocessor
  deriving DecidableEq, Repr

/-- The three outcomes of a step of this machine. -/
abbrev Result := Host.Outcome State Fault Refusal

/-- The machine right after reset (R50, R370). `pc` is RESET_PC; PSR, `pend`, the latch, the hardware stack and the pending
interrupts are as the spec says; memory holds nothing. What the spec leaves unspecified holds the value the log
names: the general registers, the flags and EPC zero (log entries 6, 7 and 9), PSR_2 the reset value of PSR (log
entry 8), the platform the most it can offer (log entries 17 to 19), the environment silent (log entry 16). -/
def State.reset : State where
  set1 := Vector.replicate 32 0#32
  set2 := Vector.replicate 32 0#32
  pc := Config.resetPc
  pend := none
  cregs := Vector.replicate 8 ⟨false, false, false⟩
  psr := .superEntry
  psr2 := .superEntry
  epc := 0#32
  hwstack := []
  mulhi := none
  intpend := []
  dmem := []
  imem := []
  copLog := []
  platform := { regions := [⟨0, 2 ^ 32⟩], unified := .unknown, attached := Vector.replicate 4 true }
  env := []

end Sys2Proof.Machine
end

