-- ==== Sys2Proof/Machine/Operands.lean ====
section
/-! DEFINITION. The operands of the instructions: the general registers of the two sets (spec/10_state.md R22 to R24), the
immediates (R93), the addresses computed from them (R233, R242, R260), and the helper functions of
spec/42_bitfield_shift.md R180 and of the multiplications (R211 to R217). -/

namespace Sys2Proof.Machine

/-! ### General registers -/

/-- Register `r` of a register file (R20). -/
def regOf (f : Vector Word 32) (r : Reg) : Word := f[r.toNat]'r.isLt

/-- A register file with `v` in register `r`. -/
def withReg (f : Vector Word 32) (r : Reg) (v : Word) : Vector Word 32 := f.set r.toNat v r.isLt

/-- `x[r]` as a value: register `r` of the set PSR.RSRD selects (R8, R22). -/
def State.reg (s : State) (r : Reg) : Word :=
  match s.psr.rsrd with
  | .set1 => regOf s.set1 r
  | .set2 => regOf s.set2 r

/-- `x[r] <- v`: register `r` of the set PSR.RSWR selects (R8, R22). -/
def State.setReg (s : State) (r : Reg) (v : Word) : State :=
  match s.psr.rswr with
  | .set1 => { s with set1 := withReg s.set1 r v }
  | .set2 => { s with set2 := withReg s.set2 r v }

/-- The register a 16-bit-mode operand names: register 0...7 of the selected set (R23). -/
def wide (r : RegS) : Reg := r.setWidth 5

/-- The link register of `jal` and `jalr`, and SR31 of `scall` and `retu` (R24). -/
def linkReg : Reg := 31#5

/-- SR31: register 31 of set 2, whatever the selection is (R24). -/
def State.sr31 (s : State) : Word := regOf s.set2 linkReg

/-- SR31 written, whatever the selection is (R24, R280). -/
def State.setSr31 (s : State) (v : Word) : State := { s with set2 := withReg s.set2 linkReg v }

/-! ### Condition registers -/

/-- `c[k]` (R28). -/
def State.creg (s : State) (k : CReg) : Flags := s.cregs[k.toNat]'k.isLt

/-- `c[k] <- f`: all three flags (R29). -/
def State.setCreg (s : State) (k : CReg) (f : Flags) : State := { s with cregs := s.cregs.set k.toNat f k.isLt }

/-! ### Immediates and addresses -/

/-- `sext_32(imm)` (R7). -/
def sextImm {n : Nat} (imm : BitVec n) : Word := imm.signExtend 32

/-- `zext_32(imm)` (R7). -/
def zextImm {n : Nat} (imm : BitVec n) : Word := imm.setWidth 32

/-- `L`, the current instruction length in bytes (R10, R26). -/
def State.len (s : State) : Word :=
  match s.psr.il with
  | .il16 => 2#32
  | .il32 => 4#32

/-- `Target(imm)`: the address of the slot plus twice the signed immediate (R233). -/
def State.branchTarget {n : Nat} (s : State) (imm : BitVec n) : Word := s.pc + s.len + sextImm (imm ++ 0#1)

/-- `Link`: the address of the next instruction after the branch slot (R242). -/
def State.link (s : State) : Word := s.pc + s.len + s.len

/-- The address presented to memory: the 32-bit sum with its two low bits driven low (R62, R260). -/
def effAddr (base off : Word) : Word := (base + off) &&& 0xFFFFFFFC#32

/-! ### Bytes, bit fields, sign extension, shifts -/

/-- `0^16 ++ a[7:0] ++ b[7:0]` (R181). -/
def concatBytes (a b : Word) : Word := toWord (fieldAt a 0 8 ++ fieldAt b 0 8)

/-- `a[15:0] ++ b[15:0]` (R182). -/
def concatHalves (a b : Word) : Word := toWord (fieldAt a 0 16 ++ fieldAt b 0 16)

/-- `0^24 ++ v[8*k+7 : 8*k]` (R183). -/
def extractByte (v : Word) (k : BitVec 2) : Word := toWord (fieldAt v (8 * k.toNat) 8)

/-- The low halfword of `v` for `k` = 0, the high one otherwise, zero extended (R184). -/
def extractHalf (v : Word) (k : BitVec 1) : Word :=
  if k = 0#1 then toWord (fieldAt v 0 16) else toWord (fieldAt v 16 16)

/-- `Extract(v, len, pos)`: the `len` bits of `v` from bit `pos` up, zero extended; past bit 31 it is the free value
`EXBF_OVERRUN` (R180, log entry 15). -/
def extractField (v : Word) (len : BitVec 6) (pos : BitVec 5) : Word :=
  if pos.toNat + len.toNat ≤ 32 then BitVec.ofNat 32 (v.toNat / 2 ^ pos.toNat % 2 ^ len.toNat)
  else Config.exbfOverrun v len pos

/-- The field that eleven control bits name: length in bits 10:5, position in bits 4:0 (R185, R186). -/
def extractByControl (v : Word) (ctl : BitVec 11) : Word := extractField v (fieldAt ctl 5 6) (fieldAt ctl 0 5)

/-- `SignExt(v, p)`: bits `p` down to 0 are kept, every bit above becomes a copy of bit `p` (R180). -/
def signExt (v : Word) (p : BitVec 5) : Word := (v <<< (31 - p.toNat)).sshiftRight (31 - p.toNat)

/-- `ShAmt(n)`: `n` up to 32, and 32 beyond (R180, R189). -/
def shAmt (n : BitVec 6) : Nat := min n.toNat 32

/-- `Sll(v, k)` for `k` in 0...32 (R180). -/
def shiftLeft (v : Word) (k : Nat) : Word := v <<< k

/-- `Srl(v, k)` for `k` in 0...32: zeros enter at bit 31 (R180). -/
def shiftRight (v : Word) (k : Nat) : Word := v >>> k

/-- `Sra(v, k)` for `k` in 0...32: copies of bit 31 enter at the top (R180, R194; log entry 30). -/
def shiftRightArith (v : Word) (k : Nat) : Word := v.sshiftRight k

/-! ### Products -/

/-- `P = trunc_64(p)` of an exact product (R211 to R214). -/
def product64 (p : Int) : BitVec 64 := BitVec.ofInt 64 p

/-- `v[15:0]` (R215 to R217). -/
def lowHalf (v : Word) : Half := fieldAt v 0 16

end Sys2Proof.Machine
end

