-- ==== Sys2Proof/Machine/Flags.lean ====
section
/-! DEFINITION. The flags: how additions, subtractions and comparisons set them (spec/40_arithmetic.md R140), what a
condition says of them (spec/44_control_transfer.md R230), and all of them as one word (spec/46_system.md R276, R277). -/

namespace Sys2Proof.Machine

/-- `SubC(a, b)`: the carry of a subtraction, in the sense `SUB_CARRY_SENSE` gives it (R140, log entry 13). -/
def subCarry (a b : Word) : Bool :=
  let borrow := decide (a.toNat < b.toNat)
  if Config.subCarryIsBorrow then borrow else !borrow

/-- The flags of an addition: of the wrapped result, with the carry out of bit 31 (R140). -/
def addFlags (a b : Word) : Flags where
  z := a + b == 0#32
  n := (a + b).msb
  c := decide (2 ^ 32 ≤ a.toNat + b.toNat)

/-- The flags of a subtraction: of the wrapped result (R140). -/
def subFlags (a b : Word) : Flags where
  z := a - b == 0#32
  n := (a - b).msb
  c := subCarry a b

/-- The flags of a comparison: of the exact signed difference (R140). -/
def cmpFlags (a b : Word) : Flags where
  z := decide (a.toInt - b.toInt = 0)
  n := decide (a.toInt - b.toInt < 0)
  c := subCarry a b

/-- The signed overflow test of `add`, `addi` and `sub`: the exact result does not fit in 32 bits (R140). -/
def overflows (e : Int) : Bool := decide (e > 2 ^ 31 - 1) || decide (e < -2 ^ 31)

/-- `CondHolds`: what a condition says of three flags, and none where an ordered condition meets Z = N = 1 (R230). -/
def condHolds (cc : Cond) (f : Flags) : Option Bool :=
  match cc with
  | .c => some f.c
  | .eq => some f.z
  | .ne => some (!f.z)
  | .lt => if f.z && f.n then none else some (f.n && !f.z)
  | .egt => if f.z && f.n then none else some (!f.n || f.z)
  | .gt => if f.z && f.n then none else some (!f.n && !f.z)
  | .elt => if f.z && f.n then none else some (f.n || f.z)

/-- `F(k)`: the three bits Z, N, C of a condition register, Z the highest (R276). -/
def flagBits (f : Flags) : BitVec 3 := BitVec.ofBool f.z ++ BitVec.ofBool f.n ++ BitVec.ofBool f.c

/-- What `scon` saves: `0^8 ++ F(7) ++ ... ++ F(0)` (R276). -/
def packFlags (f : Vector Flags 8) : Word :=
  toWord (flagBits f[7] ++ flagBits f[6] ++ flagBits f[5] ++ flagBits f[4] ++ flagBits f[3] ++ flagBits f[2]
    ++ flagBits f[1] ++ flagBits f[0])

/-- The flags of condition register `k` in a word `rcon` restores: bits `3k+2`, `3k+1`, `3k` (R277). -/
def flagsAt (v : Word) (k : Nat) : Flags := ⟨v.getLsbD (3 * k + 2), v.getLsbD (3 * k + 1), v.getLsbD (3 * k)⟩

/-- What `rcon` restores; bits 31:24 are ignored (R277). -/
def unpackFlags (v : Word) : Vector Flags 8 :=
  #v[flagsAt v 0, flagsAt v 1, flagsAt v 2, flagsAt v 3, flagsAt v 4, flagsAt v 5, flagsAt v 6, flagsAt v 7]

end Sys2Proof.Machine
end

