-- ==== Sys2Proof/Machine/Ops.lean ====
section
/-! DEFINITION. The shared operations: memory, the step of one instruction around its own effect with the branch-slot
discipline (spec/44_control_transfer.md R231, R232, R234), taking an exception (spec/60_exceptions.md R324), taking an
interrupt (R332) and the returns (spec/46_system.md R281, R282), the coprocessor interface (R300). -/

namespace Sys2Proof.Machine

/-! ### Memory -/

/-- The canonical form of a memory: addresses strictly rising, all within the 32-bit space. -/
abbrev Memory.wf (m : Memory) : Prop := m.Pairwise (fun x y => x.1 < y.1) ∧ ∀ x ∈ m, x.1 < 2 ^ 32

/-- The byte at an address, if it holds a value. -/
def readByte : Memory → Nat → Option Byte
  | [], _ => none
  | (b, v) :: m, a => if a = b then some v else readByte m a

/-- The memory with byte `v` at address `a`. -/
def writeByte : Memory → Nat → Byte → Memory
  | [], a, v => [(a, v)]
  | (b, w) :: m, a, v =>
    if a < b then (a, v) :: (b, w) :: m
    else if a = b then (a, v) :: m
    else (b, w) :: writeByte m a v

/-- The bytes from an address up, if each holds a value. -/
def readBytes (m : Memory) (a : Nat) : Nat → Option (List Byte)
  | 0 => some []
  | n + 1 =>
    match readByte m a, readBytes m (a + 1) n with
    | some v, some vs => some (v :: vs)
    | _, _ => none

/-- The memory with the bytes of a list from an address up. -/
def writeBytes (m : Memory) (a : Nat) : List Byte → Memory
  | [] => m
  | v :: vs => writeBytes (writeByte m a v) (a + 1) vs

/-- The word of four bytes, most significant first (log entry 4). -/
def wordOfBytes : List Byte → Option Word
  | [a, b, c, d] => some (toWord (a ++ b ++ c ++ d))
  | _ => none

/-- `MemRead(a, 4)`: the word at `a`, if it holds a value (R63). -/
def memRead (m : Memory) (a : Word) : Option Word := (readBytes m a.toNat 4).bind wordOfBytes

/-- `MemWrite(a, 4, v)` (R63). -/
def memWrite (m : Memory) (a v : Word) : Memory := writeBytes m a.toNat (bytesOfWord v)

/-- `DValid(a)`: the word at `a` lies in a region that holds memory (R65). -/
def State.dValid (s : State) (a : Word) : Bool :=
  s.platform.regions.any fun r => decide (r.base ≤ a.toNat) && decide (a.toNat + 4 ≤ r.base + r.size)

/-- The word at `a` belongs to the program text: instruction memory holds a byte of it (R72, log entry 19). -/
def State.inProgramText (s : State) (a : Word) : Bool := s.imem.any fun x => x.1 / 4 == a.toNat / 4

/-! ### What an instruction's own rule does -/

/-- The synchronous exceptions (R320). No register records which one occurred. -/
inductive Exc where
  /-- `add`, `addi`, `sub`: the exact signed result does not fit (R322). -/
  | overflow
  /-- `chrs` in user mode (R321). -/
  | privilegeViolation
  /-- `trap` (R323). -/
  | trap
  deriving DecidableEq, Repr

/-- What the rule of an instruction answers: a changed state, a raised exception, or a stop. -/
inductive Effect where
  | done (s : State)
  | raise (e : Exc)
  | fault (f : Fault)
  | refuse (r : Refusal)
  deriving DecidableEq, Repr

/-- Exception entry: EPC takes the address of the raising instruction, PSR the super user default, `pc` EXCEP_ADDR;
`pend` and the latch are cleared and nothing else changes, for each of the three exceptions alike (R324). -/
def enterException (_e : Exc) (s : State) : State :=
  { s with epc := s.pc, psr := .superEntry, pc := Config.excepAddr, pend := none, mulhi := none }

/-- Step 2 of R231: what may not stand in a slot (R234 b, c). -/
def slotCheck (role : SlotRole) : Option Transfer → Option Refusal
  | none => none
  | some t =>
    match role with
    | .bearing => some .transferInSlot
    | .plain => if t.mustBeNop then some .slotMustBeNop else none
    | .filler => none

/-- Step 4 of R231 without an exception: `pc` advances to `next`, or the pending transfer of a completed slot happens. -/
def commit (slot : Option Transfer) (next : Word) (s : State) : State :=
  match slot with
  | none => { s with pc := next }
  | some t => { s with pc := t.target.getD next, psr := t.newPSR.getD s.psr }

/-- The state in which the rule of an instruction runs: `pend` is consumed (step 2 of R231) and the latch is `none` unless
the rule sets it (step 5, R210). -/
def State.opened (s : State) : State := { s with pend := none, mulhi := none }

/-- The state after an instruction at `s` whose rule has made `t` of the opened state. -/
def State.close (s t : State) : State := commit s.pend (s.pc + s.len) t

/-- One instruction from its decoding on, around its own rule `body`: steps 2 to 5 of R231. -/
def runInstr (role : SlotRole) (body : State → Effect) (s : State) : Result :=
  match slotCheck role s.pend with
  | some r => .refused r
  | none =>
    match body s.opened with
    | .done t => .next (s.close t)
    | .raise e => if s.pend.isSome then .refused .exceptionInSlot else .next (enterException e s)
    | .fault f => .fault f
    | .refuse r => .refused r

/-- A `(cond, creg)` form: the rule runs if the condition holds, and `skip` happens otherwise (R232). -/
def ifCond (cc : Cond) (k : CReg) (skip : State → State) (body : State → Effect) (s : State) : Effect :=
  match condHolds cc (s.creg k) with
  | none => .refuse .conditionOnInconsistentFlags
  | some false => .done (skip s)
  | some true => body s

/-- An instruction with no slot. -/
def plain (body : State → Effect) (s : State) : Result := runInstr .plain body s

/-- The conditional form of an instruction with no slot: skipped, it does nothing (R232). -/
def plainIf (cc : Cond) (k : CReg) (body : State → Effect) (s : State) : Result :=
  runInstr .plain (ifCond cc k id body) s

/-! ### Rules that write one register -/

/-- `x[d] <- f(x[a])`. -/
def compute1 (f : Word → Word) (d a : Reg) (s : State) : Effect := .done (s.setReg d (f (s.reg a)))

/-- `x[d] <- f(x[a], x[b])`: both sources are read before the write. -/
def compute2 (f : Word → Word → Word) (d a b : Reg) (s : State) : Effect :=
  .done (s.setReg d (f (s.reg a) (s.reg b)))

/-! ### Control transfers -/

/-- `pend <- Transfer(target, newPSR, mustBeNop)` (R27). -/
def State.transfer (s : State) (target : Option Word) (newPSR : Option PSR) (mustBeNop : Bool) : State :=
  { s with pend := some { target := target, newPSR := newPSR, mustBeNop := mustBeNop } }

/-- A slot-bearing instruction. -/
def bearing (body : State → Effect) (s : State) : Result := runInstr .bearing body s

/-- The conditional form of a slot-bearing instruction: skipped, it still makes the next instruction its slot (R232,
R234 a). -/
def bearingIf (cc : Cond) (k : CReg) (mustBeNop : Bool) (body : State → Effect) (s : State) : Result :=
  runInstr .bearing (ifCond cc k (fun t => t.transfer none none mustBeNop) body) s

/-- The rule of `scall` (R280): PSR_2 takes PSR, SR31 the link address, and control goes to SYS_ADDR with the super user
default after a slot that must be a `nop`. -/
def systemCall (s : State) : Effect :=
  .done (({ s with psr2 := s.psr }.setSr31 s.link).transfer (some Config.sysAddr) (some .superEntry) true)

/-- The rule of `retu` (R281): control goes to SR31 in user mode with set 1, IE and IL as PSR_2 holds them. -/
def returnToUser (s : State) : Effect :=
  match s.psr.um with
  | .user => .refuse .privilegedInUserMode
  | .super =>
    .done (s.transfer (some s.sr31)
      (some { um := .user, ie := s.psr2.ie, il := s.psr2.il, rsrd := .set1, rswr := .set1 }) true)

/-- The rule of `reti` (R282): PC and PSR are popped from the hardware stack. -/
def returnFromInterrupt (s : State) : Effect :=
  match s.psr.um with
  | .user => .refuse .privilegedInUserMode
  | .super =>
    match s.hwstack with
    | [] => .refuse .hwStackUnderflow
    | e :: rest => .done ({ s with hwstack := rest }.transfer (some e.pc) (some e.psr) true)

/-! ### Interrupts -/

/-- A set of sources with one more, in strictly rising order (R37). -/
def addSource (n : Nat) : List Nat → List Nat
  | [] => [n]
  | m :: ms => if n < m then n :: m :: ms else if n = m then m :: ms else m :: addSource n ms

/-- Source `a` is served before source `b` (`IntPriority`, R330). -/
def servedBefore (a b : Nat) : Bool :=
  decide (Config.intRank a < Config.intRank b) || (decide (Config.intRank a = Config.intRank b) && decide (a < b))

/-- The highest-priority source of a set (R331). -/
def topSource : List Nat → Option Nat
  | [] => none
  | n :: ns =>
    match topSource ns with
    | none => some n
    | some m => if servedBefore n m then some n else some m

/-- Interrupt entry for source `src`: (PC, PSR) is pushed, the request is served, and control goes to INT_ADDR with the
super user default (R332). -/
def enterInterrupt (src : Nat) (s : State) : Result :=
  if Config.hwStackDepth ≤ s.hwstack.length then .refused .hwStackOverflow
  else
    .next { s with
      hwstack := ⟨s.pc, s.psr⟩ :: s.hwstack
      intpend := s.intpend.filter (· != src)
      psr := .superEntry
      pc := Config.intAddr src
      mulhi := none }

/-! ### Coprocessors -/

/-- A coprocessor is attached at number `n` (R300). -/
def State.attached (s : State) (n : CopNum) : Bool := s.platform.attached[n.toNat]'n.isLt

/-- An operation issued to the coprocessors (R300, R306). -/
def State.issue (s : State) (op : CopOp) : State := { s with copLog := s.copLog ++ [op] }

/-- `CopExec`, `CopWrite`: the operation goes to the coprocessor and no core state changes (R300). -/
def copSend (n : CopNum) (op : CopOp) (s : State) : Effect :=
  if s.attached n then .done (s.issue op) else .refuse .noCoprocessor

/-- `x[d] <- CopRead(n, r)`: the value is free (R300, log entry 17). -/
def copReceive (n : CopNum) (r d : Reg) (s : State) : Effect :=
  if s.attached n then .done ((s.setReg d (Config.copRead s.copLog n r)).issue (.read n r))
  else .refuse .noCoprocessor

end Sys2Proof.Machine
end

