-- ==== Sys2Proof/Machine/Arith.lean ====
section
/-! DEFINITION. The meanings of the additions, subtractions and comparisons (spec/40_arithmetic.md): add, addi,
addiu, addu, sub, subu, cmp, cmpi. -/

namespace Sys2Proof.Machine

/-- The exact signed result `e` goes to register `d`, or Overflow is raised and nothing is written (R140, R322). -/
def writeSigned (d : Reg) (e : Int) (s : State) : Effect :=
  if overflows e then .raise .overflow else .done (s.setReg d (BitVec.ofInt 32 e))

/-- The wrapped sum of `a` and `b` goes to register `d`, its flags to `c[0]` (R140). -/
def writeSum (d : Reg) (a b : Word) (s : State) : Effect := .done ((s.setReg d (a + b)).setCreg 0#3 (addFlags a b))

/-- `e = s(x[a]) + s(x[b])`, signed, raising Overflow (R141). -/
def addRule (d a b : Reg) (s : State) : Effect := writeSigned d ((s.reg a).toInt + (s.reg b).toInt) s

/-- `add`, 32-bit form (R141). -/
def execAdd (dreg sreg1 sreg2 : Reg) (s : State) : Result := plain (addRule dreg sreg1 sreg2) s

/-- `add`, conditional form (R141). -/
def execAddCond (cond : Cond) (creg : CReg) (dreg sreg1 sreg2 : Reg) (s : State) : Result :=
  plainIf cond creg (addRule dreg sreg1 sreg2) s

/-- `add`, 16-bit form (R141). -/
def execAddShort (dr sr : RegS) (s : State) : Result := plain (addRule (wide dr) (wide sr) (wide dr)) s

/-- `e = s(x[a]) + s(imm)`, signed, raising Overflow (R142). -/
def addiRule (d a : Reg) (imm : Word) (s : State) : Effect := writeSigned d ((s.reg a).toInt + imm.toInt) s

/-- `addi`, 32-bit form (R142). -/
def execAddi (dreg sreg1 : Reg) (imm : BitVec 15) (s : State) : Result := plain (addiRule dreg sreg1 (sextImm imm)) s

/-- `addi`, conditional form (R142). -/
def execAddiCond (cond : Cond) (creg : CReg) (dreg sreg1 : Reg) (imm : BitVec 9) (s : State) : Result :=
  plainIf cond creg (addiRule dreg sreg1 (sextImm imm)) s

/-- `addi`, 16-bit form (R142). -/
def execAddiShort (dr : RegS) (imm : BitVec 7) (s : State) : Result :=
  plain (addiRule (wide dr) (wide dr) (sextImm imm)) s

/-- `x[d] <- x[a] + imm` modulo 2^32, with flags (R143). -/
def addiuRule (d a : Reg) (imm : Word) (s : State) : Effect := writeSum d (s.reg a) imm s

/-- `addiu`, 32-bit form (R143). -/
def execAddiu (dreg sreg1 : Reg) (imm : BitVec 15) (s : State) : Result :=
  plain (addiuRule dreg sreg1 (zextImm imm)) s

/-- `addiu`, conditional form (R143). -/
def execAddiuCond (cond : Cond) (creg : CReg) (dreg sreg1 : Reg) (imm : BitVec 9) (s : State) : Result :=
  plainIf cond creg (addiuRule dreg sreg1 (zextImm imm)) s

/-- `addiu`, 16-bit form (R143). -/
def execAddiuShort (dr : RegS) (imm : BitVec 7) (s : State) : Result :=
  plain (addiuRule (wide dr) (wide dr) (zextImm imm)) s

/-- `x[d] <- x[a] + x[b]` modulo 2^32, with flags (R144). -/
def adduRule (d a b : Reg) (s : State) : Effect := writeSum d (s.reg a) (s.reg b) s

/-- `addu`, 32-bit form (R144). -/
def execAddu (dreg sreg1 sreg2 : Reg) (s : State) : Result := plain (adduRule dreg sreg1 sreg2) s

/-- `addu`, conditional form (R144). -/
def execAdduCond (cond : Cond) (creg : CReg) (dreg sreg1 sreg2 : Reg) (s : State) : Result :=
  plainIf cond creg (adduRule dreg sreg1 sreg2) s

/-- `addu`, 16-bit form (R144). -/
def execAdduShort (dr sr : RegS) (s : State) : Result := plain (adduRule (wide dr) (wide sr) (wide dr)) s

/-- `e = s(x[a]) - s(x[b])`, signed, raising Overflow (R145). -/
def subRule (d a b : Reg) (s : State) : Effect := writeSigned d ((s.reg a).toInt - (s.reg b).toInt) s

/-- `sub`, 32-bit form (R145). -/
def execSub (dreg sreg1 sreg2 : Reg) (s : State) : Result := plain (subRule dreg sreg1 sreg2) s

/-- `sub`, conditional form (R145). -/
def execSubCond (cond : Cond) (creg : CReg) (dreg sreg1 sreg2 : Reg) (s : State) : Result :=
  plainIf cond creg (subRule dreg sreg1 sreg2) s

/-- `sub`, 16-bit form (R145). -/
def execSubShort (dr sr : RegS) (s : State) : Result := plain (subRule (wide dr) (wide sr) (wide dr)) s

/-- `x[d] <- x[a] - x[b]` modulo 2^32, with flags in `c[0]` (R146). -/
def subuRule (d a b : Reg) (s : State) : Effect :=
  .done ((s.setReg d (s.reg a - s.reg b)).setCreg 0#3 (subFlags (s.reg a) (s.reg b)))

/-- `subu`, 32-bit form (R146). -/
def execSubu (dreg sreg1 sreg2 : Reg) (s : State) : Result := plain (subuRule dreg sreg1 sreg2) s

/-- `subu`, conditional form (R146). -/
def execSubuCond (cond : Cond) (creg : CReg) (dreg sreg1 sreg2 : Reg) (s : State) : Result :=
  plainIf cond creg (subuRule dreg sreg1 sreg2) s

/-- `subu`, 16-bit form (R146). -/
def execSubuShort (dr sr : RegS) (s : State) : Result := plain (subuRule (wide dr) (wide sr) (wide dr)) s

/-- `c[k] <-` the flags of the comparison of `x[a]` with `x[b]` (R147). -/
def cmpRule (k : CReg) (a b : Reg) (s : State) : Effect := .done (s.setCreg k (cmpFlags (s.reg a) (s.reg b)))

/-- `cmp`, 32-bit form (R147). -/
def execCmp (creg : CReg) (sreg1 sreg2 : Reg) (s : State) : Result := plain (cmpRule creg sreg1 sreg2) s

/-- `cmp`, 16-bit form (R147). -/
def execCmpShort (sr1 sr2 : RegS) (s : State) : Result := plain (cmpRule 0#3 (wide sr1) (wide sr2)) s

/-- `c[k] <-` the flags of the comparison of `x[a]` with the immediate (R148). -/
def cmpiRule (k : CReg) (a : Reg) (imm : Word) (s : State) : Effect := .done (s.setCreg k (cmpFlags (s.reg a) imm))

/-- `cmpi`, 32-bit form (R148). -/
def execCmpi (creg : CReg) (sreg1 : Reg) (imm : BitVec 17) (s : State) : Result :=
  plain (cmpiRule creg sreg1 (sextImm imm)) s

/-- `cmpi`, 16-bit form (R148). -/
def execCmpiShort (sr : RegS) (imm : BitVec 7) (s : State) : Result := plain (cmpiRule 0#3 (wide sr) (sextImm imm)) s

end Sys2Proof.Machine
end

