-- ==== Sys2Proof/Machine/BitField.lean ====
section
/-! DEFINITION. The meanings of the byte, halfword and bit-field operations and of the sign extensions
(spec/42_bitfield_shift.md R181 to R188): conb, conh, exb, exh, exbfi, exbf, sexti, sext. -/

namespace Sys2Proof.Machine

/-- `x[d] <- 0^16 ++ x[a][7:0] ++ x[b][7:0]` (R181). -/
def conbRule (d a b : Reg) : State → Effect := compute2 concatBytes d a b

/-- `conb`, 32-bit form (R181). -/
def execConb (dreg sreg1 sreg2 : Reg) (s : State) : Result := plain (conbRule dreg sreg1 sreg2) s

/-- `conb`, conditional form (R181). -/
def execConbCond (cond : Cond) (creg : CReg) (dreg sreg1 sreg2 : Reg) (s : State) : Result :=
  plainIf cond creg (conbRule dreg sreg1 sreg2) s

/-- `conb`, 16-bit form (R181). -/
def execConbShort (dr sr : RegS) (s : State) : Result := plain (conbRule (wide dr) (wide sr) (wide dr)) s

/-- `x[d] <- x[a][15:0] ++ x[b][15:0]` (R182). -/
def conhRule (d a b : Reg) : State → Effect := compute2 concatHalves d a b

/-- `conh`, 32-bit form (R182). -/
def execConh (dreg sreg1 sreg2 : Reg) (s : State) : Result := plain (conhRule dreg sreg1 sreg2) s

/-- `conh`, conditional form (R182). -/
def execConhCond (cond : Cond) (creg : CReg) (dreg sreg1 sreg2 : Reg) (s : State) : Result :=
  plainIf cond creg (conhRule dreg sreg1 sreg2) s

/-- `conh`, 16-bit form (R182). -/
def execConhShort (dr sr : RegS) (s : State) : Result := plain (conhRule (wide dr) (wide sr) (wide dr)) s

/-- `x[d] <-` byte `imm` of `x[a]`, zero extended (R183). -/
def exbRule (d a : Reg) (imm : BitVec 2) : State → Effect := compute1 (fun x => extractByte x imm) d a

/-- `exb`, 32-bit form (R183). -/
def execExb (dreg sreg1 : Reg) (imm : BitVec 2) (s : State) : Result := plain (exbRule dreg sreg1 imm) s

/-- `exb`, conditional form (R183). -/
def execExbCond (cond : Cond) (creg : CReg) (dreg sreg1 : Reg) (imm : BitVec 2) (s : State) : Result :=
  plainIf cond creg (exbRule dreg sreg1 imm) s

/-- `exb`, 16-bit form (R183). -/
def execExbShort (dr sr : RegS) (imm : BitVec 2) (s : State) : Result := plain (exbRule (wide dr) (wide sr) imm) s

/-- `x[d] <-` the halfword of `x[a]` that `imm` names, zero extended (R184). -/
def exhRule (d a : Reg) (imm : BitVec 1) : State → Effect := compute1 (fun x => extractHalf x imm) d a

/-- `exh`, 32-bit form (R184). -/
def execExh (dreg sreg1 : Reg) (imm : BitVec 1) (s : State) : Result := plain (exhRule dreg sreg1 imm) s

/-- `exh`, conditional form (R184). -/
def execExhCond (cond : Cond) (creg : CReg) (dreg sreg1 : Reg) (imm : BitVec 1) (s : State) : Result :=
  plainIf cond creg (exhRule dreg sreg1 imm) s

/-- `exh`, 16-bit form (R184). -/
def execExhShort (dr sr : RegS) (imm : BitVec 1) (s : State) : Result := plain (exhRule (wide dr) (wide sr) imm) s

/-- `x[d] <- Extract(x[a], imm[10:5], imm[4:0])` (R185). -/
def exbfiRule (d a : Reg) (imm : BitVec 11) : State → Effect := compute1 (fun x => extractByControl x imm) d a

/-- `exbfi`, 32-bit form (R185). -/
def execExbfi (dreg sreg1 : Reg) (imm : BitVec 11) (s : State) : Result := plain (exbfiRule dreg sreg1 imm) s

/-- `x[d] <- Extract(x[a], ctl[10:5], ctl[4:0])` with `ctl = x[b][10:0]` (R186). -/
def exbfRule (d a b : Reg) : State → Effect := compute2 (fun x y => extractByControl x (fieldAt y 0 11)) d a b

/-- `exbf`, 32-bit form (R186). -/
def execExbf (dreg sreg1 sreg2 : Reg) (s : State) : Result := plain (exbfRule dreg sreg1 sreg2) s

/-- `exbf`, conditional form (R186). -/
def execExbfCond (cond : Cond) (creg : CReg) (dreg sreg1 sreg2 : Reg) (s : State) : Result :=
  plainIf cond creg (exbfRule dreg sreg1 sreg2) s

/-- `exbf`, 16-bit form (R186). -/
def execExbfShort (dr sr : RegS) (s : State) : Result := plain (exbfRule (wide dr) (wide sr) (wide dr)) s

/-- `x[d] <- SignExt(x[a], imm)` (R187). -/
def sextiRule (d a : Reg) (imm : BitVec 5) : State → Effect := compute1 (fun x => signExt x imm) d a

/-- `sexti`, 32-bit form (R187). -/
def execSexti (dreg sreg1 : Reg) (imm : BitVec 5) (s : State) : Result := plain (sextiRule dreg sreg1 imm) s

/-- `sexti`, conditional form (R187). -/
def execSextiCond (cond : Cond) (creg : CReg) (dreg sreg1 : Reg) (imm : BitVec 5) (s : State) : Result :=
  plainIf cond creg (sextiRule dreg sreg1 imm) s

/-- `sexti`, 16-bit form (R187). -/
def execSextiShort (dr : RegS) (imm : BitVec 5) (s : State) : Result := plain (sextiRule (wide dr) (wide dr) imm) s

/-- `x[d] <- SignExt(x[a], x[b][4:0])` (R188). -/
def sextRule (d a b : Reg) : State → Effect := compute2 (fun x y => signExt x (fieldAt y 0 5)) d a b

/-- `sext`, 32-bit form (R188). -/
def execSext (dreg sreg1 sreg2 : Reg) (s : State) : Result := plain (sextRule dreg sreg1 sreg2) s

/-- `sext`, conditional form (R188). -/
def execSextCond (cond : Cond) (creg : CReg) (dreg sreg1 sreg2 : Reg) (s : State) : Result :=
  plainIf cond creg (sextRule dreg sreg1 sreg2) s

/-- `sext`, 16-bit form (R188). -/
def execSextShort (dr sr : RegS) (s : State) : Result := plain (sextRule (wide dr) (wide sr) (wide dr)) s

end Sys2Proof.Machine
end

