-- ==== Sys2Proof/Machine/Control.lean ====
section
/-! DEFINITION. The meanings of the branches, jumps, calls and `nop` (spec/44_control_transfer.md): bc, begt,
belt, beq, bgt, blt, bne, jal, jalr, jmp, jmpr, nop. -/

namespace Sys2Proof.Machine

/-- A conditional branch on `c[k]`: the next instruction is its slot whether it is taken or not (R233 to R241). -/
def branchOn {n : Nat} (cc : Cond) (k : CReg) (imm : BitVec n) (s : State) : Effect :=
  match condHolds cc (s.creg k) with
  | none => .refuse .conditionOnInconsistentFlags
  | some taken => .done (s.transfer (if taken then some (s.branchTarget imm) else none) none false)

/-- Branch if `CondHolds(c, k)` (R235). -/
def bcRule {n : Nat} (k : CReg) (imm : BitVec n) : State → Effect := branchOn .c k imm

/-- `bc`, 32-bit form (R235). -/
def execBc (creg : CReg) (imm : BitVec 22) (s : State) : Result := bearing (bcRule creg imm) s

/-- `bc`, 16-bit form (R235). -/
def execBcShort (imm : BitVec 10) (s : State) : Result := bearing (bcRule 0#3 imm) s

/-- Branch if `CondHolds(egt, k)` (R236). -/
def begtRule {n : Nat} (k : CReg) (imm : BitVec n) : State → Effect := branchOn .egt k imm

/-- `begt`, 32-bit form (R236). -/
def execBegt (creg : CReg) (imm : BitVec 22) (s : State) : Result := bearing (begtRule creg imm) s

/-- `begt`, 16-bit form (R236). -/
def execBegtShort (imm : BitVec 10) (s : State) : Result := bearing (begtRule 0#3 imm) s

/-- Branch if `CondHolds(elt, k)` (R237). -/
def beltRule {n : Nat} (k : CReg) (imm : BitVec n) : State → Effect := branchOn .elt k imm

/-- `belt`, 32-bit form (R237). -/
def execBelt (creg : CReg) (imm : BitVec 22) (s : State) : Result := bearing (beltRule creg imm) s

/-- `belt`, 16-bit form (R237). -/
def execBeltShort (imm : BitVec 10) (s : State) : Result := bearing (beltRule 0#3 imm) s

/-- Branch if `CondHolds(eq, k)` (R238). -/
def beqRule {n : Nat} (k : CReg) (imm : BitVec n) : State → Effect := branchOn .eq k imm

/-- `beq`, 32-bit form (R238). -/
def execBeq (creg : CReg) (imm : BitVec 22) (s : State) : Result := bearing (beqRule creg imm) s

/-- `beq`, 16-bit form (R238). -/
def execBeqShort (imm : BitVec 10) (s : State) : Result := bearing (beqRule 0#3 imm) s

/-- Branch if `CondHolds(gt, k)` (R239). -/
def bgtRule {n : Nat} (k : CReg) (imm : BitVec n) : State → Effect := branchOn .gt k imm

/-- `bgt`, 32-bit form (R239). -/
def execBgt (creg : CReg) (imm : BitVec 22) (s : State) : Result := bearing (bgtRule creg imm) s

/-- `bgt`, 16-bit form (R239). -/
def execBgtShort (imm : BitVec 10) (s : State) : Result := bearing (bgtRule 0#3 imm) s

/-- Branch if `CondHolds(lt, k)` (R240). -/
def bltRule {n : Nat} (k : CReg) (imm : BitVec n) : State → Effect := branchOn .lt k imm

/-- `blt`, 32-bit form (R240). -/
def execBlt (creg : CReg) (imm : BitVec 22) (s : State) : Result := bearing (bltRule creg imm) s

/-- `blt`, 16-bit form (R240). -/
def execBltShort (imm : BitVec 10) (s : State) : Result := bearing (bltRule 0#3 imm) s

/-- Branch if `CondHolds(ne, k)` (R241). -/
def bneRule {n : Nat} (k : CReg) (imm : BitVec n) : State → Effect := branchOn .ne k imm

/-- `bne`, 32-bit form (R241). -/
def execBne (creg : CReg) (imm : BitVec 22) (s : State) : Result := bearing (bneRule creg imm) s

/-- `bne`, 16-bit form (R241). -/
def execBneShort (imm : BitVec 10) (s : State) : Result := bearing (bneRule 0#3 imm) s

/-- `x[31] <- Link`, then to `Target(imm)` (R243). -/
def jalRule {n : Nat} (imm : BitVec n) (s : State) : Effect :=
  .done ((s.setReg linkReg s.link).transfer (some (s.branchTarget imm)) none false)

/-- `jal`, 32-bit form (R243). -/
def execJal (imm : BitVec 25) (s : State) : Result := bearing (jalRule imm) s

/-- `jal`, 16-bit form (R243). -/
def execJalShort (imm : BitVec 10) (s : State) : Result := bearing (jalRule imm) s

/-- The target is read before the link is written: `t = x[a]; x[31] <- Link`, then to `t` (R244). -/
def jalrRule (a : Reg) (s : State) : Effect :=
  .done ((s.setReg linkReg s.link).transfer (some (s.reg a)) none false)

/-- `jalr`, 32-bit form (R244). -/
def execJalr (sreg1 : Reg) (s : State) : Result := bearing (jalrRule sreg1) s

/-- `jalr`, conditional form (R244). -/
def execJalrCond (cond : Cond) (creg : CReg) (sreg1 : Reg) (s : State) : Result :=
  bearingIf cond creg false (jalrRule sreg1) s

/-- `jalr`, 16-bit form (R244). -/
def execJalrShort (sr : RegS) (s : State) : Result := bearing (jalrRule (wide sr)) s

/-- To `Target(imm)` (R245). -/
def jmpRule {n : Nat} (imm : BitVec n) (s : State) : Effect := .done (s.transfer (some (s.branchTarget imm)) none false)

/-- `jmp`, 32-bit form (R245). -/
def execJmp (imm : BitVec 25) (s : State) : Result := bearing (jmpRule imm) s

/-- `jmp`, 16-bit form (R245). -/
def execJmpShort (imm : BitVec 10) (s : State) : Result := bearing (jmpRule imm) s

/-- To `x[a]`, no bit of it masked (R246). -/
def jmprRule (a : Reg) (s : State) : Effect := .done (s.transfer (some (s.reg a)) none false)

/-- `jmpr`, 32-bit form (R246). -/
def execJmpr (sreg1 : Reg) (s : State) : Result := bearing (jmprRule sreg1) s

/-- `jmpr`, conditional form (R246). -/
def execJmprCond (cond : Cond) (creg : CReg) (sreg1 : Reg) (s : State) : Result :=
  bearingIf cond creg false (jmprRule sreg1) s

/-- `jmpr`, 16-bit form (R246). -/
def execJmprShort (sr : RegS) (s : State) : Result := bearing (jmprRule (wide sr)) s

/-- Nothing (R247). -/
def nopRule (s : State) : Effect := .done s

/-- `nop`, 32-bit form (R247). -/
def execNop (s : State) : Result := runInstr .filler nopRule s

/-- `nop`, 16-bit form (R247). -/
def execNopShort (s : State) : Result := runInstr .filler nopRule s

end Sys2Proof.Machine
end

