-- ==== Sys2Proof/Machine/Coprocessor.lean ====
section
/-! DEFINITION. The meanings of the coprocessor instructions (spec/47_coprocessor.md): cop, movdfc, movcfc,
movdtc, movctc. -/

namespace Sys2Proof.Machine

/-- `CopExec(n, w)` (R301). -/
def copRule (n : CopNum) (w : BitVec 24) : State → Effect := copSend n (.exec n w)

/-- `cop`, 32-bit form (R301). -/
def execCop (imm1 : CopNum) (imm2 : BitVec 24) (s : State) : Result := plain (copRule imm1 imm2) s

/-- `x[d] <- CopRead(n, r)` (R302). -/
def movdfcRule (n : CopNum) (d r : Reg) : State → Effect := copReceive n r d

/-- `movdfc`, 32-bit form (R302). -/
def execMovdfc (cpn : CopNum) (dreg cpSreg : Reg) (s : State) : Result := plain (movdfcRule cpn dreg cpSreg) s

/-- `movdfc`, conditional form (R302). -/
def execMovdfcCond (cond : Cond) (creg : CReg) (cpn : CopNum) (dreg cpSreg : Reg) (s : State) : Result :=
  plainIf cond creg (movdfcRule cpn dreg cpSreg) s

/-- `movdfc`, 16-bit form (R302). -/
def execMovdfcShort (cpn : CopNum) (dr : RegS) (cpSreg : Reg) (s : State) : Result :=
  plain (movdfcRule cpn (wide dr) cpSreg) s

/-- `x[d] <- CopRead(n, 0)`: the status/control register (R303). -/
def movcfcRule (n : CopNum) (d : Reg) : State → Effect := copReceive n 0#5 d

/-- `movcfc`, 32-bit form (R303). -/
def execMovcfc (cpn : CopNum) (dreg : Reg) (s : State) : Result := plain (movcfcRule cpn dreg) s

/-- `movcfc`, conditional form (R303). -/
def execMovcfcCond (cond : Cond) (creg : CReg) (cpn : CopNum) (dreg : Reg) (s : State) : Result :=
  plainIf cond creg (movcfcRule cpn dreg) s

/-- `movcfc`, 16-bit form (R303). -/
def execMovcfcShort (cpn : CopNum) (dr : RegS) (s : State) : Result := plain (movcfcRule cpn (wide dr)) s

/-- `CopWrite(n, r, x[a])` (R304). -/
def movdtcRule (n : CopNum) (r a : Reg) (s : State) : Effect := copSend n (.write n r (s.reg a)) s

/-- `movdtc`, 32-bit form (R304). -/
def execMovdtc (cpn : CopNum) (cpDreg sreg1 : Reg) (s : State) : Result := plain (movdtcRule cpn cpDreg sreg1) s

/-- `movdtc`, conditional form (R304). -/
def execMovdtcCond (cond : Cond) (creg : CReg) (cpn : CopNum) (cpDreg sreg1 : Reg) (s : State) : Result :=
  plainIf cond creg (movdtcRule cpn cpDreg sreg1) s

/-- `movdtc`, 16-bit form (R304). -/
def execMovdtcShort (cpn : CopNum) (cpDreg : Reg) (sr : RegS) (s : State) : Result :=
  plain (movdtcRule cpn cpDreg (wide sr)) s

/-- `CopWrite(n, 0, x[a])`: the control/status register (R305). -/
def movctcRule (n : CopNum) (a : Reg) (s : State) : Effect := copSend n (.write n 0#5 (s.reg a)) s

/-- `movctc`, 32-bit form (R305). -/
def execMovctc (cpn : CopNum) (sreg1 : Reg) (s : State) : Result := plain (movctcRule cpn sreg1) s

/-- `movctc`, conditional form (R305). -/
def execMovctcCond (cond : Cond) (creg : CReg) (cpn : CopNum) (sreg1 : Reg) (s : State) : Result :=
  plainIf cond creg (movctcRule cpn sreg1) s

/-- `movctc`, 16-bit form (R305). -/
def execMovctcShort (cpn : CopNum) (sr : RegS) (s : State) : Result := plain (movctcRule cpn (wide sr)) s

end Sys2Proof.Machine
end

