-- ==== Sys2Proof/Machine/LoadStore.lean ====
section
/-! DEFINITION. The meanings of the load and the store (spec/45_load_store.md): ld, st. -/

namespace Sys2Proof.Machine

/-- `x[d] <- MemRead(ea, 4)` with `ea` from base `x[a]` and offset `off` (R260, R261). -/
def ldRule (d a : Reg) (off : Word) (s : State) : Effect :=
  let ea := effAddr (s.reg a) off
  if s.dValid ea then
    match memRead s.dmem ea with
    | none => .fault .uninitialisedData
    | some v => .done (s.setReg d v)
  else .fault .dataAddressInvalid

/-- `ld`, 32-bit form (R261). -/
def execLd (dreg sreg1 : Reg) (imm : BitVec 15) (s : State) : Result := plain (ldRule dreg sreg1 (sextImm imm)) s

/-- `ld`, conditional form (R261). -/
def execLdCond (cond : Cond) (creg : CReg) (dreg sreg1 : Reg) (imm : BitVec 9) (s : State) : Result :=
  plainIf cond creg (ldRule dreg sreg1 (sextImm imm)) s

/-- `ld`, 16-bit form (R261). -/
def execLdShort (dr sr : RegS) (imm : BitVec 4) (s : State) : Result :=
  plain (ldRule (wide dr) (wide sr) (sextImm imm)) s

/-- `MemWrite(ea, 4, x[b])` with `ea` from base `x[a]` and offset `off`, refused in the program text unless the memories
are known to be separate (R260, R262, R72). -/
def stRule (b a : Reg) (off : Word) (s : State) : Effect :=
  let ea := effAddr (s.reg a) off
  if s.dValid ea then
    if s.inProgramText ea && s.platform.unified != .separate then .refuse .storeToCode
    else .done { s with dmem := memWrite s.dmem ea (s.reg b) }
  else .fault .dataAddressInvalid

/-- `st`, 32-bit form (R262). -/
def execSt (sreg2 sreg1 : Reg) (imm : BitVec 15) (s : State) : Result := plain (stRule sreg2 sreg1 (sextImm imm)) s

/-- `st`, conditional form (R262). -/
def execStCond (cond : Cond) (creg : CReg) (sreg2 sreg1 : Reg) (imm : BitVec 9) (s : State) : Result :=
  plainIf cond creg (stRule sreg2 sreg1 (sextImm imm)) s

/-- `st`, 16-bit form (R262). -/
def execStShort (sr2 sr1 : RegS) (imm : BitVec 4) (s : State) : Result :=
  plain (stRule (wide sr2) (wide sr1) (sextImm imm)) s

end Sys2Proof.Machine
end

