-- ==== Sys2Proof/Machine/Logic.lean ====
section
/-! DEFINITION. The meanings of the bitwise operations, register moves and constant loads
(spec/41_logical_move.md): and, andi, or, ori, xor, not, mov, lli, lui. -/

namespace Sys2Proof.Machine

/-- `x[d] <- x[a] AND x[b]` (R160). -/
def andRule (d a b : Reg) : State → Effect := compute2 (fun x y => x &&& y) d a b

/-- `and`, 32-bit form (R160). -/
def execAnd (dreg sreg1 sreg2 : Reg) (s : State) : Result := plain (andRule dreg sreg1 sreg2) s

/-- `and`, conditional form (R160). -/
def execAndCond (cond : Cond) (creg : CReg) (dreg sreg1 sreg2 : Reg) (s : State) : Result :=
  plainIf cond creg (andRule dreg sreg1 sreg2) s

/-- `and`, 16-bit form (R160). -/
def execAndShort (dr sr : RegS) (s : State) : Result := plain (andRule (wide dr) (wide sr) (wide dr)) s

/-- `x[d] <- x[a] AND imm`, the immediate zero extended (R161). -/
def andiRule (d a : Reg) (imm : Word) : State → Effect := compute1 (fun x => x &&& imm) d a

/-- `andi`, 32-bit form (R161). -/
def execAndi (dreg sreg1 : Reg) (imm : BitVec 15) (s : State) : Result := plain (andiRule dreg sreg1 (zextImm imm)) s

/-- `andi`, conditional form (R161). -/
def execAndiCond (cond : Cond) (creg : CReg) (dreg sreg1 : Reg) (imm : BitVec 9) (s : State) : Result :=
  plainIf cond creg (andiRule dreg sreg1 (zextImm imm)) s

/-- `andi`, 16-bit form (R161). -/
def execAndiShort (dr : RegS) (imm : BitVec 7) (s : State) : Result :=
  plain (andiRule (wide dr) (wide dr) (zextImm imm)) s

/-- `x[d] <- x[a] OR x[b]` (R162). -/
def orRule (d a b : Reg) : State → Effect := compute2 (fun x y => x ||| y) d a b

/-- `or`, 32-bit form (R162). -/
def execOr (dreg sreg1 sreg2 : Reg) (s : State) : Result := plain (orRule dreg sreg1 sreg2) s

/-- `or`, conditional form (R162). -/
def execOrCond (cond : Cond) (creg : CReg) (dreg sreg1 sreg2 : Reg) (s : State) : Result :=
  plainIf cond creg (orRule dreg sreg1 sreg2) s

/-- `or`, 16-bit form (R162). -/
def execOrShort (dr sr : RegS) (s : State) : Result := plain (orRule (wide dr) (wide sr) (wide dr)) s

/-- `x[d] <- x[a] OR imm`, the immediate zero extended (R163). -/
def oriRule (d a : Reg) (imm : Word) : State → Effect := compute1 (fun x => x ||| imm) d a

/-- `ori`, 32-bit form (R163). -/
def execOri (dreg sreg1 : Reg) (imm : BitVec 15) (s : State) : Result := plain (oriRule dreg sreg1 (zextImm imm)) s

/-- `ori`, conditional form (R163). -/
def execOriCond (cond : Cond) (creg : CReg) (dreg sreg1 : Reg) (imm : BitVec 9) (s : State) : Result :=
  plainIf cond creg (oriRule dreg sreg1 (zextImm imm)) s

/-- `ori`, 16-bit form (R163). -/
def execOriShort (dr : RegS) (imm : BitVec 7) (s : State) : Result :=
  plain (oriRule (wide dr) (wide dr) (zextImm imm)) s

/-- `x[d] <- x[a] XOR x[b]` (R164). -/
def xorRule (d a b : Reg) : State → Effect := compute2 (fun x y => x ^^^ y) d a b

/-- `xor`, 32-bit form (R164). -/
def execXor (dreg sreg1 sreg2 : Reg) (s : State) : Result := plain (xorRule dreg sreg1 sreg2) s

/-- `xor`, conditional form (R164). -/
def execXorCond (cond : Cond) (creg : CReg) (dreg sreg1 sreg2 : Reg) (s : State) : Result :=
  plainIf cond creg (xorRule dreg sreg1 sreg2) s

/-- `xor`, 16-bit form (R164). -/
def execXorShort (dr sr : RegS) (s : State) : Result := plain (xorRule (wide dr) (wide sr) (wide dr)) s

/-- `x[d] <- NOT x[a]` (R165). -/
def notRule (d a : Reg) : State → Effect := compute1 (fun x => ~~~x) d a

/-- `not`, 32-bit form (R165). -/
def execNot (dreg sreg1 : Reg) (s : State) : Result := plain (notRule dreg sreg1) s

/-- `not`, conditional form (R165). -/
def execNotCond (cond : Cond) (creg : CReg) (dreg sreg1 : Reg) (s : State) : Result :=
  plainIf cond creg (notRule dreg sreg1) s

/-- `not`, 16-bit form (R165). -/
def execNotShort (dr sr : RegS) (s : State) : Result := plain (notRule (wide dr) (wide sr)) s

/-- `x[d] <- x[a]`, read through the read set and written through the write set (R166). -/
def movRule (d a : Reg) : State → Effect := compute1 (fun x => x) d a

/-- `mov`, 32-bit form (R166). -/
def execMov (dreg sreg1 : Reg) (s : State) : Result := plain (movRule dreg sreg1) s

/-- `mov`, conditional form (R166). -/
def execMovCond (cond : Cond) (creg : CReg) (dreg sreg1 : Reg) (s : State) : Result :=
  plainIf cond creg (movRule dreg sreg1) s

/-- `mov`, 16-bit form (R166). -/
def execMovShort (dr sr : RegS) (s : State) : Result := plain (movRule (wide dr) (wide sr)) s

/-- `x[d] <- 0^16 ++ imm` (R167). -/
def lliRule (d : Reg) (imm : BitVec 16) (s : State) : Effect := .done (s.setReg d (toWord (0#16 ++ imm)))

/-- `lli`, 32-bit form (R167). -/
def execLli (dreg : Reg) (imm : BitVec 16) (s : State) : Result := plain (lliRule dreg imm) s

/-- `x[d] <- imm ++ 0^16` (R168). -/
def luiRule (d : Reg) (imm : BitVec 16) (s : State) : Effect := .done (s.setReg d (toWord (imm ++ 0#16)))

/-- `lui`, 32-bit form (R168). -/
def execLui (dreg : Reg) (imm : BitVec 16) (s : State) : Result := plain (luiRule dreg imm) s

end Sys2Proof.Machine
end

