-- ==== Sys2Proof/Machine/Multiply.lean ====
section
/-! DEFINITION. The meanings of the multiplications (spec/43_multiply.md): muli, muls, mulu, mulus, muls_16,
mulu_16, mulus_16, mulhi. -/

namespace Sys2Proof.Machine

/-- The low half of the exact product `p` goes to register `d`, the high half to the latch (R210 to R214). -/
def writeProduct (d : Reg) (p : Int) (s : State) : Effect :=
  .done { s.setReg d (fieldAt (product64 p) 0 32) with mulhi := some (fieldAt (product64 p) 32 32) }

/-- The exact product `p` of two halfwords goes to register `d` whole (R215 to R217). -/
def writeProduct16 (d : Reg) (p : Int) (s : State) : Effect := .done (s.setReg d (BitVec.ofInt 32 p))

/-- `p = s(x[a]) * s(imm)` (R211). -/
def muliRule (d a : Reg) (imm : Word) (s : State) : Effect := writeProduct d ((s.reg a).toInt * imm.toInt) s

/-- `muli`, 32-bit form (R211). -/
def execMuli (dreg sreg1 : Reg) (imm : BitVec 15) (s : State) : Result := plain (muliRule dreg sreg1 (sextImm imm)) s

/-- `muli`, conditional form (R211). -/
def execMuliCond (cond : Cond) (creg : CReg) (dreg sreg1 : Reg) (imm : BitVec 9) (s : State) : Result :=
  plainIf cond creg (muliRule dreg sreg1 (sextImm imm)) s

/-- `muli`, 16-bit form (R211). -/
def execMuliShort (dr : RegS) (imm : BitVec 7) (s : State) : Result :=
  plain (muliRule (wide dr) (wide dr) (sextImm imm)) s

/-- `p = s(x[a]) * s(x[b])` (R212). -/
def mulsRule (d a b : Reg) (s : State) : Effect := writeProduct d ((s.reg a).toInt * (s.reg b).toInt) s

/-- `muls`, 32-bit form (R212). -/
def execMuls (dreg sreg1 sreg2 : Reg) (s : State) : Result := plain (mulsRule dreg sreg1 sreg2) s

/-- `muls`, conditional form (R212). -/
def execMulsCond (cond : Cond) (creg : CReg) (dreg sreg1 sreg2 : Reg) (s : State) : Result :=
  plainIf cond creg (mulsRule dreg sreg1 sreg2) s

/-- `muls`, 16-bit form (R212). -/
def execMulsShort (dr sr : RegS) (s : State) : Result := plain (mulsRule (wide dr) (wide sr) (wide dr)) s

/-- `p = u(x[a]) * u(x[b])` (R213). -/
def muluRule (d a b : Reg) (s : State) : Effect := writeProduct d ((s.reg a).toNat * (s.reg b).toNat : Int) s

/-- `mulu`, 32-bit form (R213). -/
def execMulu (dreg sreg1 sreg2 : Reg) (s : State) : Result := plain (muluRule dreg sreg1 sreg2) s

/-- `mulu`, conditional form (R213). -/
def execMuluCond (cond : Cond) (creg : CReg) (dreg sreg1 sreg2 : Reg) (s : State) : Result :=
  plainIf cond creg (muluRule dreg sreg1 sreg2) s

/-- `mulu`, 16-bit form (R213). -/
def execMuluShort (dr sr : RegS) (s : State) : Result := plain (muluRule (wide dr) (wide sr) (wide dr)) s

/-- `p = u(x[a]) * s(x[b])` (R214). -/
def mulusRule (d a b : Reg) (s : State) : Effect := writeProduct d ((s.reg a).toNat * (s.reg b).toInt) s

/-- `mulus`, 32-bit form (R214). -/
def execMulus (dreg sreg1 sreg2 : Reg) (s : State) : Result := plain (mulusRule dreg sreg1 sreg2) s

/-- `mulus`, conditional form (R214). -/
def execMulusCond (cond : Cond) (creg : CReg) (dreg sreg1 sreg2 : Reg) (s : State) : Result :=
  plainIf cond creg (mulusRule dreg sreg1 sreg2) s

/-- `mulus`, 16-bit form (R214). -/
def execMulusShort (dr sr : RegS) (s : State) : Result := plain (mulusRule (wide dr) (wide sr) (wide dr)) s

/-- `p = s(x[a][15:0]) * s(x[b][15:0])` (R215). -/
def muls16Rule (d a b : Reg) (s : State) : Effect :=
  writeProduct16 d ((lowHalf (s.reg a)).toInt * (lowHalf (s.reg b)).toInt) s

/-- `muls_16`, 32-bit form (R215). -/
def execMuls16 (dreg sreg1 sreg2 : Reg) (s : State) : Result := plain (muls16Rule dreg sreg1 sreg2) s

/-- `muls_16`, conditional form (R215). -/
def execMuls16Cond (cond : Cond) (creg : CReg) (dreg sreg1 sreg2 : Reg) (s : State) : Result :=
  plainIf cond creg (muls16Rule dreg sreg1 sreg2) s

/-- `muls_16`, 16-bit form (R215). -/
def execMuls16Short (dr sr : RegS) (s : State) : Result := plain (muls16Rule (wide dr) (wide sr) (wide dr)) s

/-- `p = u(x[a][15:0]) * u(x[b][15:0])` (R216). -/
def mulu16Rule (d a b : Reg) (s : State) : Effect :=
  writeProduct16 d ((lowHalf (s.reg a)).toNat * (lowHalf (s.reg b)).toNat : Int) s

/-- `mulu_16`, 32-bit form (R216). -/
def execMulu16 (dreg sreg1 sreg2 : Reg) (s : State) : Result := plain (mulu16Rule dreg sreg1 sreg2) s

/-- `mulu_16`, conditional form (R216). -/
def execMulu16Cond (cond : Cond) (creg : CReg) (dreg sreg1 sreg2 : Reg) (s : State) : Result :=
  plainIf cond creg (mulu16Rule dreg sreg1 sreg2) s

/-- `mulu_16`, 16-bit form (R216). -/
def execMulu16Short (dr sr : RegS) (s : State) : Result := plain (mulu16Rule (wide dr) (wide sr) (wide dr)) s

/-- `p = u(x[a][15:0]) * s(x[b][15:0])` (R217). -/
def mulus16Rule (d a b : Reg) (s : State) : Effect :=
  writeProduct16 d ((lowHalf (s.reg a)).toNat * (lowHalf (s.reg b)).toInt) s

/-- `mulus_16`, 32-bit form (R217). -/
def execMulus16 (dreg sreg1 sreg2 : Reg) (s : State) : Result := plain (mulus16Rule dreg sreg1 sreg2) s

/-- `mulus_16`, conditional form (R217). -/
def execMulus16Cond (cond : Cond) (creg : CReg) (dreg sreg1 sreg2 : Reg) (s : State) : Result :=
  plainIf cond creg (mulus16Rule dreg sreg1 sreg2) s

/-- `mulus_16`, 16-bit form (R217). -/
def execMulus16Short (dr sr : RegS) (s : State) : Result := plain (mulus16Rule (wide dr) (wide sr) (wide dr)) s

/-- `x[d] <-` the latch as the instruction finds it; with no latch there is no step (R218). The opened state has cleared
it already, so it is passed in. -/
def mulhiRule (d : Reg) (latch : Option Word) (s : State) : Effect :=
  match latch with
  | none => .refuse .mulhiWithoutMultiply
  | some v => .done (s.setReg d v)

/-- `mulhi`, 32-bit form (R218). -/
def execMulhi (dreg : Reg) (s : State) : Result := plain (mulhiRule dreg s.mulhi) s

/-- `mulhi`, conditional form (R218). -/
def execMulhiCond (cond : Cond) (creg : CReg) (dreg : Reg) (s : State) : Result :=
  plainIf cond creg (mulhiRule dreg s.mulhi) s

/-- `mulhi`, 16-bit form (R218). -/
def execMulhiShort (dr : RegS) (s : State) : Result := plain (mulhiRule (wide dr) s.mulhi) s

end Sys2Proof.Machine
end

