-- ==== Sys2Proof/Machine/Shift.lean ====
section
/-! DEFINITION. The meanings of the shifts (spec/42_bitfield_shift.md R189 to R195): sll, slli, srl, srli,
sra, srai. -/

namespace Sys2Proof.Machine

/-- A shift by the amount in the six low bits of a register, above 32 counted as 32 (R189). -/
def shiftByReg (f : Word → Nat → Word) (v amount : Word) : Word := f v (shAmt (fieldAt amount 0 6))

/-- A shift by an immediate of 0...32; 33...63 is refused (R189). -/
def shiftByImm (f : Word → Nat → Word) (d a : Reg) (imm : BitVec 6) (s : State) : Effect :=
  if shiftImmOk imm then compute1 (fun x => f x imm.toNat) d a s else .refuse .shiftImmediateRange

/-- `x[d] <- Sll(x[a], ShAmt(x[b][5:0]))` (R190). -/
def sllRule (d a b : Reg) : State → Effect := compute2 (shiftByReg shiftLeft) d a b

/-- `sll`, 32-bit form (R190). -/
def execSll (dreg sreg1 sreg2 : Reg) (s : State) : Result := plain (sllRule dreg sreg1 sreg2) s

/-- `sll`, conditional form (R190). -/
def execSllCond (cond : Cond) (creg : CReg) (dreg sreg1 sreg2 : Reg) (s : State) : Result :=
  plainIf cond creg (sllRule dreg sreg1 sreg2) s

/-- `sll`, 16-bit form (R190). -/
def execSllShort (dr sr : RegS) (s : State) : Result := plain (sllRule (wide dr) (wide sr) (wide dr)) s

/-- `x[d] <- Sll(x[a], imm)` (R191). -/
def slliRule (d a : Reg) (imm : BitVec 6) : State → Effect := shiftByImm shiftLeft d a imm

/-- `slli`, 32-bit form (R191). -/
def execSlli (dreg sreg1 : Reg) (imm : BitVec 6) (s : State) : Result := plain (slliRule dreg sreg1 imm) s

/-- `slli`, conditional form (R191). -/
def execSlliCond (cond : Cond) (creg : CReg) (dreg sreg1 : Reg) (imm : BitVec 6) (s : State) : Result :=
  plainIf cond creg (slliRule dreg sreg1 imm) s

/-- `slli`, 16-bit form (R191). -/
def execSlliShort (dr : RegS) (imm : BitVec 6) (s : State) : Result := plain (slliRule (wide dr) (wide dr) imm) s

/-- `x[d] <- Srl(x[a], ShAmt(x[b][5:0]))` (R192). -/
def srlRule (d a b : Reg) : State → Effect := compute2 (shiftByReg shiftRight) d a b

/-- `srl`, 32-bit form (R192). -/
def execSrl (dreg sreg1 sreg2 : Reg) (s : State) : Result := plain (srlRule dreg sreg1 sreg2) s

/-- `srl`, conditional form (R192). -/
def execSrlCond (cond : Cond) (creg : CReg) (dreg sreg1 sreg2 : Reg) (s : State) : Result :=
  plainIf cond creg (srlRule dreg sreg1 sreg2) s

/-- `srl`, 16-bit form (R192). -/
def execSrlShort (dr sr : RegS) (s : State) : Result := plain (srlRule (wide dr) (wide sr) (wide dr)) s

/-- `x[d] <- Srl(x[a], imm)` (R193). -/
def srliRule (d a : Reg) (imm : BitVec 6) : State → Effect := shiftByImm shiftRight d a imm

/-- `srli`, 32-bit form (R193). -/
def execSrli (dreg sreg1 : Reg) (imm : BitVec 6) (s : State) : Result := plain (srliRule dreg sreg1 imm) s

/-- `srli`, conditional form (R193). -/
def execSrliCond (cond : Cond) (creg : CReg) (dreg sreg1 : Reg) (imm : BitVec 6) (s : State) : Result :=
  plainIf cond creg (srliRule dreg sreg1 imm) s

/-- `srli`, 16-bit form (R193). -/
def execSrliShort (dr : RegS) (imm : BitVec 6) (s : State) : Result := plain (srliRule (wide dr) (wide dr) imm) s

/-- `x[d] <- Sra(x[a], ShAmt(x[b][5:0]))` (R194). -/
def sraRule (d a b : Reg) : State → Effect := compute2 (shiftByReg shiftRightArith) d a b

/-- `sra`, 32-bit form (R194). -/
def execSra (dreg sreg1 sreg2 : Reg) (s : State) : Result := plain (sraRule dreg sreg1 sreg2) s

/-- `sra`, conditional form (R194). -/
def execSraCond (cond : Cond) (creg : CReg) (dreg sreg1 sreg2 : Reg) (s : State) : Result :=
  plainIf cond creg (sraRule dreg sreg1 sreg2) s

/-- `sra`, 16-bit form (R194). -/
def execSraShort (dr sr : RegS) (s : State) : Result := plain (sraRule (wide dr) (wide sr) (wide dr)) s

/-- `x[d] <- Sra(x[a], imm)` (R195). -/
def sraiRule (d a : Reg) (imm : BitVec 6) : State → Effect := shiftByImm shiftRightArith d a imm

/-- `srai`, 32-bit form (R195). -/
def execSrai (dreg sreg1 : Reg) (imm : BitVec 6) (s : State) : Result := plain (sraiRule dreg sreg1 imm) s

/-- `srai`, conditional form (R195). -/
def execSraiCond (cond : Cond) (creg : CReg) (dreg sreg1 : Reg) (imm : BitVec 6) (s : State) : Result :=
  plainIf cond creg (sraiRule dreg sreg1 imm) s

/-- `srai`, 16-bit form (R195). -/
def execSraiShort (dr : RegS) (imm : BitVec 6) (s : State) : Result := plain (sraiRule (wide dr) (wide dr) imm) s

end Sys2Proof.Machine
end

