-- ==== Sys2Proof/Machine/System.lean ====
section
/-! DEFINITION. The meanings of the system instructions (spec/46_system.md): chrs, di, ei, scon, rcon, scall,
retu, reti, swm, trap. -/

namespace Sys2Proof.Machine

/-- Set 2 for a bit of 1, set 1 for a bit of 0 (R271). -/
def setOfBit (b : Bool) : RegSet := if b then .set2 else .set1

/-- PSR.IE changes, in super user mode only (R270, R272, R273). -/
def setInterrupts (ie : Bool) (s : State) : Effect :=
  match s.psr.um with
  | .user => .refuse .privilegedInUserMode
  | .super => .done { s with psr := { s.psr with ie := ie } }

/-- `imm[1]` selects the write set and `imm[0]` the read set; in user mode PrivilegeViolation is raised (R271, R321). -/
def chrsRule (imm : BitVec 2) (s : State) : Effect :=
  match s.psr.um with
  | .user => .raise .privilegeViolation
  | .super =>
    .done { s with psr := { s.psr with rswr := setOfBit (imm.getLsbD 1), rsrd := setOfBit (imm.getLsbD 0) } }

/-- `chrs`, 32-bit form (R271). -/
def execChrs (imm : BitVec 2) (s : State) : Result := plain (chrsRule imm) s

/-- `chrs`, 16-bit form (R271). -/
def execChrsShort (imm : BitVec 2) (s : State) : Result := plain (chrsRule imm) s

/-- `PSR.IE <- 0` (R272). -/
def diRule : State → Effect := setInterrupts false

/-- `di`, 32-bit form (R272). -/
def execDi (s : State) : Result := plain diRule s

/-- `di`, 16-bit form (R272). -/
def execDiShort (s : State) : Result := plain diRule s

/-- `PSR.IE <- 1` (R273). -/
def eiRule : State → Effect := setInterrupts true

/-- `ei`, 32-bit form (R273). -/
def execEi (s : State) : Result := plain eiRule s

/-- `ei`, 16-bit form (R273). -/
def execEiShort (s : State) : Result := plain eiRule s

/-- `x[d] <-` all the condition registers (R276). -/
def sconRule (d : Reg) (s : State) : Effect := .done (s.setReg d (packFlags s.cregs))

/-- `scon`, 32-bit form (R276). -/
def execScon (dreg : Reg) (s : State) : Result := plain (sconRule dreg) s

/-- `scon`, 16-bit form (R276). -/
def execSconShort (dr : RegS) (s : State) : Result := plain (sconRule (wide dr)) s

/-- All the condition registers from `x[a]` (R277). -/
def rconRule (a : Reg) (s : State) : Effect := .done { s with cregs := unpackFlags (s.reg a) }

/-- `rcon`, 32-bit form (R277). -/
def execRcon (sreg1 : Reg) (s : State) : Result := plain (rconRule sreg1) s

/-- `rcon`, 16-bit form (R277). -/
def execRconShort (sr : RegS) (s : State) : Result := plain (rconRule (wide sr)) s

/-- The system call (R280). -/
def scallRule : State → Effect := systemCall

/-- `scall`, 32-bit form (R280). -/
def execScall (s : State) : Result := bearing scallRule s

/-- `scall`, conditional form (R280). -/
def execScallCond (cond : Cond) (creg : CReg) (s : State) : Result := bearingIf cond creg true scallRule s

/-- `scall`, 16-bit form (R280). -/
def execScallShort (s : State) : Result := bearing scallRule s

/-- The return to user mode (R281). -/
def retuRule : State → Effect := returnToUser

/-- `retu`, 32-bit form (R281). -/
def execRetu (s : State) : Result := bearing retuRule s

/-- `retu`, 16-bit form (R281). -/
def execRetuShort (s : State) : Result := bearing retuRule s

/-- The return from an interrupt (R282). -/
def retiRule : State → Effect := returnFromInterrupt

/-- `reti`, 32-bit form (R282). -/
def execReti (s : State) : Result := bearing retiRule s

/-- `reti`, 16-bit form (R282). -/
def execRetiShort (s : State) : Result := bearing retiRule s

/-- The length mode changes after the slot: bit 5 of `imm` selects 32-bit mode (R284). -/
def swmRule (imm : BitVec 6) (s : State) : Effect :=
  .done (s.transfer none (some { s.psr with il := if imm.getLsbD 5 then .il32 else .il16 }) true)

/-- `swm`, 32-bit form (R284). -/
def execSwm (imm : BitVec 6) (s : State) : Result := bearing (swmRule imm) s

/-- `swm`, 16-bit form (R284). -/
def execSwmShort (imm : BitVec 6) (s : State) : Result := bearing (swmRule imm) s

/-- `raise Trap` (R286). -/
def trapRule (_s : State) : Effect := .raise .trap

/-- `trap`, 32-bit form (R286). -/
def execTrap (s : State) : Result := plain trapRule s

/-- `trap`, 16-bit form (R286). -/
def execTrapShort (s : State) : Result := plain trapRule s

end Sys2Proof.Machine
end

