-- ==== Sys2Proof/Machine/Dispatch.lean ====
section
/-! DEFINITION. The dispatch: one arm per instruction, each one direct call of its meaning. -/

namespace Sys2Proof.Machine

def exec (i : Instr) (s : State) : Host.Outcome State Fault Refusal :=
  match i with
  | .add dreg sreg1 sreg2 => Sys2Proof.Machine.execAdd dreg sreg1 sreg2 s
  | .addCond cond creg dreg sreg1 sreg2 => Sys2Proof.Machine.execAddCond cond creg dreg sreg1 sreg2 s
  | .addShort dr sr => Sys2Proof.Machine.execAddShort dr sr s
  | .addi dreg sreg1 imm => Sys2Proof.Machine.execAddi dreg sreg1 imm s
  | .addiCond cond creg dreg sreg1 imm => Sys2Proof.Machine.execAddiCond cond creg dreg sreg1 imm s
  | .addiShort dr imm => Sys2Proof.Machine.execAddiShort dr imm s
  | .addiu dreg sreg1 imm => Sys2Proof.Machine.execAddiu dreg sreg1 imm s
  | .addiuCond cond creg dreg sreg1 imm => Sys2Proof.Machine.execAddiuCond cond creg dreg sreg1 imm s
  | .addiuShort dr imm => Sys2Proof.Machine.execAddiuShort dr imm s
  | .addu dreg sreg1 sreg2 => Sys2Proof.Machine.execAddu dreg sreg1 sreg2 s
  | .adduCond cond creg dreg sreg1 sreg2 => Sys2Proof.Machine.execAdduCond cond creg dreg sreg1 sreg2 s
  | .adduShort dr sr => Sys2Proof.Machine.execAdduShort dr sr s
  | .and dreg sreg1 sreg2 => Sys2Proof.Machine.execAnd dreg sreg1 sreg2 s
  | .andCond cond creg dreg sreg1 sreg2 => Sys2Proof.Machine.execAndCond cond creg dreg sreg1 sreg2 s
  | .andShort dr sr => Sys2Proof.Machine.execAndShort dr sr s
  | .andi dreg sreg1 imm => Sys2Proof.Machine.execAndi dreg sreg1 imm s
  | .andiCond cond creg dreg sreg1 imm => Sys2Proof.Machine.execAndiCond cond creg dreg sreg1 imm s
  | .andiShort dr imm => Sys2Proof.Machine.execAndiShort dr imm s
  | .bc creg imm => Sys2Proof.Machine.execBc creg imm s
  | .bcShort imm => Sys2Proof.Machine.execBcShort imm s
  | .begt creg imm => Sys2Proof.Machine.execBegt creg imm s
  | .begtShort imm => Sys2Proof.Machine.execBegtShort imm s
  | .belt creg imm => Sys2Proof.Machine.execBelt creg imm s
  | .beltShort imm => Sys2Proof.Machine.execBeltShort imm s
  | .beq creg imm => Sys2Proof.Machine.execBeq creg imm s
  | .beqShort imm => Sys2Proof.Machine.execBeqShort imm s
  | .bgt creg imm => Sys2Proof.Machine.execBgt creg imm s
  | .bgtShort imm => Sys2Proof.Machine.execBgtShort imm s
  | .blt creg imm => Sys2Proof.Machine.execBlt creg imm s
  | .bltShort imm => Sys2Proof.Machine.execBltShort imm s
  | .bne creg imm => Sys2Proof.Machine.execBne creg imm s
  | .bneShort imm => Sys2Proof.Machine.execBneShort imm s
  | .chrs imm => Sys2Proof.Machine.execChrs imm s
  | .chrsShort imm => Sys2Proof.Machine.execChrsShort imm s
  | .cmp creg sreg1 sreg2 => Sys2Proof.Machine.execCmp creg sreg1 sreg2 s
  | .cmpShort sr1 sr2 => Sys2Proof.Machine.execCmpShort sr1 sr2 s
  | .cmpi creg sreg1 imm => Sys2Proof.Machine.execCmpi creg sreg1 imm s
  | .cmpiShort sr imm => Sys2Proof.Machine.execCmpiShort sr imm s
  | .conb dreg sreg1 sreg2 => Sys2Proof.Machine.execConb dreg sreg1 sreg2 s
  | .conbCond cond creg dreg sreg1 sreg2 => Sys2Proof.Machine.execConbCond cond creg dreg sreg1 sreg2 s
  | .conbShort dr sr => Sys2Proof.Machine.execConbShort dr sr s
  | .conh dreg sreg1 sreg2 => Sys2Proof.Machine.execConh dreg sreg1 sreg2 s
  | .conhCond cond creg dreg sreg1 sreg2 => Sys2Proof.Machine.execConhCond cond creg dreg sreg1 sreg2 s
  | .conhShort dr sr => Sys2Proof.Machine.execConhShort dr sr s
  | .cop imm1 imm2 => Sys2Proof.Machine.execCop imm1 imm2 s
  | .di => Sys2Proof.Machine.execDi s
  | .diShort => Sys2Proof.Machine.execDiShort s
  | .ei => Sys2Proof.Machine.execEi s
  | .eiShort => Sys2Proof.Machine.execEiShort s
  | .exb dreg sreg1 imm => Sys2Proof.Machine.execExb dreg sreg1 imm s
  | .exbCond cond creg dreg sreg1 imm => Sys2Proof.Machine.execExbCond cond creg dreg sreg1 imm s
  | .exbShort dr sr imm => Sys2Proof.Machine.execExbShort dr sr imm s
  | .exbf dreg sreg1 sreg2 => Sys2Proof.Machine.execExbf dreg sreg1 sreg2 s
  | .exbfCond cond creg dreg sreg1 sreg2 => Sys2Proof.Machine.execExbfCond cond creg dreg sreg1 sreg2 s
  | .exbfShort dr sr => Sys2Proof.Machine.execExbfShort dr sr s
  | .exbfi dreg sreg1 imm => Sys2Proof.Machine.execExbfi dreg sreg1 imm s
  | .exh dreg sreg1 imm => Sys2Proof.Machine.execExh dreg sreg1 imm s
  | .exhCond cond creg dreg sreg1 imm => Sys2Proof.Machine.execExhCond cond creg dreg sreg1 imm s
  | .exhShort dr sr imm => Sys2Proof.Machine.execExhShort dr sr imm s
  | .jal imm => Sys2Proof.Machine.execJal imm s
  | .jalShort imm => Sys2Proof.Machine.execJalShort imm s
  | .jalr sreg1 => Sys2Proof.Machine.execJalr sreg1 s
  | .jalrCond cond creg sreg1 => Sys2Proof.Machine.execJalrCond cond creg sreg1 s
  | .jalrShort sr => Sys2Proof.Machine.execJalrShort sr s
  | .jmp imm => Sys2Proof.Machine.execJmp imm s
  | .jmpShort imm => Sys2Proof.Machine.execJmpShort imm s
  | .jmpr sreg1 => Sys2Proof.Machine.execJmpr sreg1 s
  | .jmprCond cond creg sreg1 => Sys2Proof.Machine.execJmprCond cond creg sreg1 s
  | .jmprShort sr => Sys2Proof.Machine.execJmprShort sr s
  | .ld dreg sreg1 imm => Sys2Proof.Machine.execLd dreg sreg1 imm s
  | .ldCond cond creg dreg sreg1 imm => Sys2Proof.Machine.execLdCond cond creg dreg sreg1 imm s
  | .ldShort dr sr imm => Sys2Proof.Machine.execLdShort dr sr imm s
  | .lli dreg imm => Sys2Proof.Machine.execLli dreg imm s
  | .lui dreg imm => Sys2Proof.Machine.execLui dreg imm s
  | .mov dreg sreg1 => Sys2Proof.Machine.execMov dreg sreg1 s
  | .movCond cond creg dreg sreg1 => Sys2Proof.Machine.execMovCond cond creg dreg sreg1 s
  | .movShort dr sr => Sys2Proof.Machine.execMovShort dr sr s
  | .movcfc cpn dreg => Sys2Proof.Machine.execMovcfc cpn dreg s
  | .movcfcCond cond creg cpn dreg => Sys2Proof.Machine.execMovcfcCond cond creg cpn dreg s
  | .movcfcShort cpn dr => Sys2Proof.Machine.execMovcfcShort cpn dr s
  | .movctc cpn sreg1 => Sys2Proof.Machine.execMovctc cpn sreg1 s
  | .movctcCond cond creg cpn sreg1 => Sys2Proof.Machine.execMovctcCond cond creg cpn sreg1 s
  | .movctcShort cpn sr => Sys2Proof.Machine.execMovctcShort cpn sr s
  | .movdfc cpn dreg cpSreg => Sys2Proof.Machine.execMovdfc cpn dreg cpSreg s
  | .movdfcCond cond creg cpn dreg cpSreg => Sys2Proof.Machine.execMovdfcCond cond creg cpn dreg cpSreg s
  | .movdfcShort cpn dr cpSreg => Sys2Proof.Machine.execMovdfcShort cpn dr cpSreg s
  | .movdtc cpn cpDreg sreg1 => Sys2Proof.Machine.execMovdtc cpn cpDreg sreg1 s
  | .movdtcCond cond creg cpn cpDreg sreg1 => Sys2Proof.Machine.execMovdtcCond cond creg cpn cpDreg sreg1 s
  | .movdtcShort cpn cpDreg sr => Sys2Proof.Machine.execMovdtcShort cpn cpDreg sr s
  | .mulhi dreg => Sys2Proof.Machine.execMulhi dreg s
  | .mulhiCond cond creg dreg => Sys2Proof.Machine.execMulhiCond cond creg dreg s
  | .mulhiShort dr => Sys2Proof.Machine.execMulhiShort dr s
  | .muli dreg sreg1 imm => Sys2Proof.Machine.execMuli dreg sreg1 imm s
  | .muliCond cond creg dreg sreg1 imm => Sys2Proof.Machine.execMuliCond cond creg dreg sreg1 imm s
  | .muliShort dr imm => Sys2Proof.Machine.execMuliShort dr imm s
  | .muls dreg sreg1 sreg2 => Sys2Proof.Machine.execMuls dreg sreg1 sreg2 s
  | .mulsCond cond creg dreg sreg1 sreg2 => Sys2Proof.Machine.execMulsCond cond creg dreg sreg1 sreg2 s
  | .mulsShort dr sr => Sys2Proof.Machine.execMulsShort dr sr s
  | .muls16 dreg sreg1 sreg2 => Sys2Proof.Machine.execMuls16 dreg sreg1 sreg2 s
  | .muls16Cond cond creg dreg sreg1 sreg2 => Sys2Proof.Machine.execMuls16Cond cond creg dreg sreg1 sreg2 s
  | .muls16Short dr sr => Sys2Proof.Machine.execMuls16Short dr sr s
  | .mulu dreg sreg1 sreg2 => Sys2Proof.Machine.execMulu dreg sreg1 sreg2 s
  | .muluCond cond creg dreg sreg1 sreg2 => Sys2Proof.Machine.execMuluCond cond creg dreg sreg1 sreg2 s
  | .muluShort dr sr => Sys2Proof.Machine.execMuluShort dr sr s
  | .mulu16 dreg sreg1 sreg2 => Sys2Proof.Machine.execMulu16 dreg sreg1 sreg2 s
  | .mulu16Cond cond creg dreg sreg1 sreg2 => Sys2Proof.Machine.execMulu16Cond cond creg dreg sreg1 sreg2 s
  | .mulu16Short dr sr => Sys2Proof.Machine.execMulu16Short dr sr s
  | .mulus dreg sreg1 sreg2 => Sys2Proof.Machine.execMulus dreg sreg1 sreg2 s
  | .mulusCond cond creg dreg sreg1 sreg2 => Sys2Proof.Machine.execMulusCond cond creg dreg sreg1 sreg2 s
  | .mulusShort dr sr => Sys2Proof.Machine.execMulusShort dr sr s
  | .mulus16 dreg sreg1 sreg2 => Sys2Proof.Machine.execMulus16 dreg sreg1 sreg2 s
  | .mulus16Cond cond creg dreg sreg1 sreg2 => Sys2Proof.Machine.execMulus16Cond cond creg dreg sreg1 sreg2 s
  | .mulus16Short dr sr => Sys2Proof.Machine.execMulus16Short dr sr s
  | .nop => Sys2Proof.Machine.execNop s
  | .nopShort => Sys2Proof.Machine.execNopShort s
  | .not dreg sreg1 => Sys2Proof.Machine.execNot dreg sreg1 s
  | .notCond cond creg dreg sreg1 => Sys2Proof.Machine.execNotCond cond creg dreg sreg1 s
  | .notShort dr sr => Sys2Proof.Machine.execNotShort dr sr s
  | .or dreg sreg1 sreg2 => Sys2Proof.Machine.execOr dreg sreg1 sreg2 s
  | .orCond cond creg dreg sreg1 sreg2 => Sys2Proof.Machine.execOrCond cond creg dreg sreg1 sreg2 s
  | .orShort dr sr => Sys2Proof.Machine.execOrShort dr sr s
  | .ori dreg sreg1 imm => Sys2Proof.Machine.execOri dreg sreg1 imm s
  | .oriCond cond creg dreg sreg1 imm => Sys2Proof.Machine.execOriCond cond creg dreg sreg1 imm s
  | .oriShort dr imm => Sys2Proof.Machine.execOriShort dr imm s
  | .rcon sreg1 => Sys2Proof.Machine.execRcon sreg1 s
  | .rconShort sr => Sys2Proof.Machine.execRconShort sr s
  | .reti => Sys2Proof.Machine.execReti s
  | .retiShort => Sys2Proof.Machine.execRetiShort s
  | .retu => Sys2Proof.Machine.execRetu s
  | .retuShort => Sys2Proof.Machine.execRetuShort s
  | .scall => Sys2Proof.Machine.execScall s
  | .scallCond cond creg => Sys2Proof.Machine.execScallCond cond creg s
  | .scallShort => Sys2Proof.Machine.execScallShort s
  | .scon dreg => Sys2Proof.Machine.execScon dreg s
  | .sconShort dr => Sys2Proof.Machine.execSconShort dr s
  | .sext dreg sreg1 sreg2 => Sys2Proof.Machine.execSext dreg sreg1 sreg2 s
  | .sextCond cond creg dreg sreg1 sreg2 => Sys2Proof.Machine.execSextCond cond creg dreg sreg1 sreg2 s
  | .sextShort dr sr => Sys2Proof.Machine.execSextShort dr sr s
  | .sexti dreg sreg1 imm => Sys2Proof.Machine.execSexti dreg sreg1 imm s
  | .sextiCond cond creg dreg sreg1 imm => Sys2Proof.Machine.execSextiCond cond creg dreg sreg1 imm s
  | .sextiShort dr imm => Sys2Proof.Machine.execSextiShort dr imm s
  | .sll dreg sreg1 sreg2 => Sys2Proof.Machine.execSll dreg sreg1 sreg2 s
  | .sllCond cond creg dreg sreg1 sreg2 => Sys2Proof.Machine.execSllCond cond creg dreg sreg1 sreg2 s
  | .sllShort dr sr => Sys2Proof.Machine.execSllShort dr sr s
  | .slli dreg sreg1 imm => Sys2Proof.Machine.execSlli dreg sreg1 imm s
  | .slliCond cond creg dreg sreg1 imm => Sys2Proof.Machine.execSlliCond cond creg dreg sreg1 imm s
  | .slliShort dr imm => Sys2Proof.Machine.execSlliShort dr imm s
  | .sra dreg sreg1 sreg2 => Sys2Proof.Machine.execSra dreg sreg1 sreg2 s
  | .sraCond cond creg dreg sreg1 sreg2 => Sys2Proof.Machine.execSraCond cond creg dreg sreg1 sreg2 s
  | .sraShort dr sr => Sys2Proof.Machine.execSraShort dr sr s
  | .srai dreg sreg1 imm => Sys2Proof.Machine.execSrai dreg sreg1 imm s
  | .sraiCond cond creg dreg sreg1 imm => Sys2Proof.Machine.execSraiCond cond creg dreg sreg1 imm s
  | .sraiShort dr imm => Sys2Proof.Machine.execSraiShort dr imm s
  | .srl dreg sreg1 sreg2 => Sys2Proof.Machine.execSrl dreg sreg1 sreg2 s
  | .srlCond cond creg dreg sreg1 sreg2 => Sys2Proof.Machine.execSrlCond cond creg dreg sreg1 sreg2 s
  | .srlShort dr sr => Sys2Proof.Machine.execSrlShort dr sr s
  | .srli dreg sreg1 imm => Sys2Proof.Machine.execSrli dreg sreg1 imm s
  | .srliCond cond creg dreg sreg1 imm => Sys2Proof.Machine.execSrliCond cond creg dreg sreg1 imm s
  | .srliShort dr imm => Sys2Proof.Machine.execSrliShort dr imm s
  | .st sreg2 sreg1 imm => Sys2Proof.Machine.execSt sreg2 sreg1 imm s
  | .stCond cond creg sreg2 sreg1 imm => Sys2Proof.Machine.execStCond cond creg sreg2 sreg1 imm s
  | .stShort sr2 sr1 imm => Sys2Proof.Machine.execStShort sr2 sr1 imm s
  | .sub dreg sreg1 sreg2 => Sys2Proof.Machine.execSub dreg sreg1 sreg2 s
  | .subCond cond creg dreg sreg1 sreg2 => Sys2Proof.Machine.execSubCond cond creg dreg sreg1 sreg2 s
  | .subShort dr sr => Sys2Proof.Machine.execSubShort dr sr s
  | .subu dreg sreg1 sreg2 => Sys2Proof.Machine.execSubu dreg sreg1 sreg2 s
  | .subuCond cond creg dreg sreg1 sreg2 => Sys2Proof.Machine.execSubuCond cond creg dreg sreg1 sreg2 s
  | .subuShort dr sr => Sys2Proof.Machine.execSubuShort dr sr s
  | .swm imm => Sys2Proof.Machine.execSwm imm s
  | .swmShort imm => Sys2Proof.Machine.execSwmShort imm s
  | .trap => Sys2Proof.Machine.execTrap s
  | .trapShort => Sys2Proof.Machine.execTrapShort s
  | .xor dreg sreg1 sreg2 => Sys2Proof.Machine.execXor dreg sreg1 sreg2 s
  | .xorCond cond creg dreg sreg1 sreg2 => Sys2Proof.Machine.execXorCond cond creg dreg sreg1 sreg2 s
  | .xorShort dr sr => Sys2Proof.Machine.execXorShort dr sr s

end Sys2Proof.Machine
end

