-- ==== Sys2Proof/Machine/Fetch.lean ====
section
/-! DEFINITION. What happens before an instruction runs: the instruction boundary, where requests arrive and an interrupt
may be taken (spec/60_exceptions.md R330, R331), the fetch (spec/20_memory.md R70, R71, R73), and an instruction placed
where the next fetch reads it (log entry 20). -/

namespace Sys2Proof.Machine

/-! ### The instruction boundary -/

/-- What the environment does at this boundary; nothing once its script is used up (log entry 16). -/
def State.boundary (s : State) : Boundary :=
  match s.env with
  | [] => { requests := [], take := false }
  | b :: _ => b

/-- The state with the requests of this boundary pending (R330). -/
def State.absorb (s : State) : State :=
  { s with intpend := s.boundary.requests.foldl (fun ms n => addSource n ms) s.intpend, env := s.env.tail }

/-- The interrupt that is due: IE = 1, no pending transfer, and the highest-priority pending source, if any (R331). -/
def State.dueInterrupt (s : State) : Option Nat :=
  if s.psr.ie && s.pend.isNone then topSource s.intpend else none

/-- The interrupt taken at this boundary: a due one, where the environment takes it (R331). -/
def State.takenInterrupt (s : State) : Option Nat := if s.boundary.take then s.absorb.dueInterrupt else none

/-! ### The fetch -/

/-- `IFetch(pc, 8*L)` and its decoding: step 1 of R231. -/
def fetch (s : State) : Host.Outcome Instr Fault Refusal :=
  if s.pc.toNat % s.psr.il.bytes ≠ 0 then .refused .misalignedFetch
  else
    match readBytes s.imem s.pc.toNat s.psr.il.bytes with
    | none => .fault .undefinedFetch
    | some bytes =>
      match decode s.psr.il bytes with
      | .ok i => .next i
      | .error why => .refused (.illegalEncoding why)

/-- `s` about to fetch the instruction whose bits are `w`: its bytes in instruction memory at `pc`, the length mode its own,
and no interrupt at this boundary. -/
def placeInstr (s : State) (nbits w : Nat) : State :=
  { s with
    imem := writeBytes s.imem s.pc.toNat (bytesOfBits nbits w)
    psr := { s.psr with il := modeOfBits nbits }
    env := [] }

end Sys2Proof.Machine
end

