-- ==== Sys2Proof/Machine/Step.lean ====
section
/-! DEFINITION. One step of the machine (spec/44_control_transfer.md R231, spec/60_exceptions.md R331). -/

namespace Sys2Proof.Machine

/-- One step: the interrupt taken at this boundary, if there is one, and the instruction at `pc` otherwise. -/
def step (s : State) : Host.Outcome State Fault Refusal :=
  match s.takenInterrupt with
  | some src => enterInterrupt src s.absorb
  | none =>
    match fetch s with
    | .next i => exec i s.absorb
    | .fault f => .fault f
    | .refused r => .refused r

/-- The state whose very next step fetches and runs the instruction of `nbits` bits `w` (log entry 20). -/
def State.withFetchWord (s : State) (nbits w : Nat) : State := placeInstr s nbits w

end Sys2Proof.Machine
end

