-- ==== Sys2Proof/Safety.lean ====
section
/-! DEFINITION. The words in which statements about the machine are made: which states are legal (`State.Inv`), when an
instruction gets to its own rule (`Executes`), and what "this changes and nothing else does" means, field by field. Each
is written from the rules of spec/, not from the definitions of Sys2Proof/Machine/ it is held against. -/

namespace Sys2Proof.Machine

/-! ### Legal states -/

/-- In user mode both register-set selectors are set 1 (R22). -/
def PSR.Legal (p : PSR) : Prop := p.um = .user → p.rsrd = .set1 ∧ p.rswr = .set1

/-- A pending transfer: only one whose slot must be a `nop` changes the PSR (R27, R376); the new PSR is legal; and in user
mode it is the super user default or again one of user mode (R280, R284). -/
structure Transfer.Legal (psr : PSR) (t : Transfer) : Prop where
  waits : t.newPSR ≠ none → t.mustBeNop = true
  legal : ∀ p, t.newPSR = some p → p.Legal
  entry : psr.um = .user → ∀ p, t.newPSR = some p → p = .superEntry ∨ p.um = .user

/-- The states every step leads to from a state of the same kind. -/
structure State.Inv (s : State) : Prop where
  /-- Data memory is in its canonical form. -/
  dmem : Memory.wf s.dmem
  /-- Instruction memory is in its canonical form. -/
  imem : Memory.wf s.imem
  /-- The pending sources are listed in strictly rising order, so that equal sets are equal lists (R37). -/
  intpend : s.intpend.Pairwise (· < ·)
  /-- The hardware stack holds at most HWSTACK_DEPTH entries (R34). -/
  depth : s.hwstack.length ≤ Config.hwStackDepth
  /-- The selectors of user mode (R22), now and in every PSR that a `reti` can bring back. -/
  psr : s.psr.Legal
  stacked : ∀ e ∈ s.hwstack, e.psr.Legal
  /-- The pending transfer, if there is one, is legal. -/
  pend : ∀ t, s.pend = some t → Transfer.Legal s.psr t

/-! ### When an instruction gets to its own rule -/

/-- The branch-slot discipline lets `i` stand where the machine is (R234): in a slot no slot-bearing instruction, and in
one that must be a `nop` nothing but `nop`. -/
def fitsSlot (i : Instr) (s : State) : Bool :=
  match s.pend with
  | none => true
  | some t => i.slotRole != .bearing && (!t.mustBeNop || i.slotRole == .filler)

/-- `i` fits its place, and its `(cond, creg)` prefix, if it has one, holds (R231, R232). -/
def Executes (i : Instr) (s : State) : Bool :=
  fitsSlot i s &&
    match i.condition? with
    | none => true
    | some (cc, k) => condHolds cc (s.creg k) == some true

/-! ### What an instruction changes and what it leaves -/

/-- `L`, the instruction length in bytes: 2 in 16-bit mode, 4 in 32-bit mode (R10). -/
def lengthNow (s : State) : Word := if s.psr.il = .il16 then 2#32 else 4#32

/-- Where `pc` goes when the instruction at `s` completes: to the target of the pending transfer if the instruction stands
in a slot and the transfer has one, past the instruction otherwise (R26, R27). -/
def nextPc (s : State) : Word :=
  match s.pend with
  | some ⟨some target, _, _⟩ => target
  | _ => s.pc + lengthNow s

/-- The PSR when the instruction at `s` completes: the new one of the pending transfer if there is one, `p`, what the
instruction itself made of it, otherwise (R27). -/
def nextPsr (s : State) (p : PSR) : PSR :=
  match s.pend with
  | some ⟨_, some q, _⟩ => q
  | _ => p

/-- `x[r]` as a value: register `r` of the set PSR.RSRD selects (R22). -/
def readReg (s : State) (r : Reg) : Word := if s.psr.rsrd = .set1 then regOf s.set1 r else regOf s.set2 r

/-- The general registers of both sets are as they were. -/
def SameRegs (s t : State) : Prop := ∀ r, regOf t.set1 r = regOf s.set1 r ∧ regOf t.set2 r = regOf s.set2 r

/-- Register `d` of the set PSR.RSWR selects holds `v`; every other general register is as it was (R22). -/
def WritesReg (s t : State) (d : Reg) (v : Word) : Prop :=
  ∀ r, regOf t.set1 r = (if s.psr.rswr = .set1 ∧ r = d then v else regOf s.set1 r) ∧
    regOf t.set2 r = (if s.psr.rswr = .set2 ∧ r = d then v else regOf s.set2 r)

/-- SR31 holds `v`; every other general register is as it was (R24). -/
def WritesSr31 (s t : State) (v : Word) : Prop :=
  ∀ r, regOf t.set1 r = regOf s.set1 r ∧ regOf t.set2 r = (if r = 31#5 then v else regOf s.set2 r)

/-- All 24 flags are as they were. -/
def SameFlags (s t : State) : Prop := ∀ k, t.creg k = s.creg k

/-- Condition register `c` holds `f`; every other one is as it was (R29). -/
def WritesFlags (s t : State) (c : CReg) (f : Flags) : Prop := ∀ k, t.creg k = if k = c then f else s.creg k

/-- Every byte of data memory reads as before. -/
def SameMem (s t : State) : Prop := ∀ a, readByte t.dmem a = readByte s.dmem a

/-- PSR_2, EPC, the hardware stack, the pending interrupts, instruction memory, the platform and the environment's script
are as they were. -/
def SameSpecial (s t : State) : Prop :=
  t.psr2 = s.psr2 ∧ t.epc = s.epc ∧ t.hwstack = s.hwstack ∧ t.intpend = s.intpend ∧ t.imem = s.imem ∧
    t.platform = s.platform ∧ t.env = s.env

/-- No slot follows: `pc` and PSR are as the branch-slot rule says, with `p` the PSR the instruction itself leaves. -/
def RetiresWith (s t : State) (p : PSR) : Prop := t.pc = nextPc s ∧ t.psr = nextPsr s p ∧ t.pend = none

/-- No slot follows and the instruction itself leaves the PSR alone. -/
def Retires (s t : State) : Prop := RetiresWith s t s.psr

/-- The next instruction is a slot: control goes on to it in the same PSR, with `tr` pending (R27, R231). -/
def Defers (s t : State) (tr : Transfer) : Prop := t.pc = s.pc + lengthNow s ∧ t.psr = s.psr ∧ t.pend = some tr

/-- Register `d` becomes `v`, the latch is cleared, control goes on, and nothing else changes. -/
def WritesRegOnly (s t : State) (d : Reg) (v : Word) : Prop :=
  WritesReg s t d v ∧ Retires s t ∧ t.mulhi = none ∧ SameFlags s t ∧ SameMem s t ∧ t.copLog = s.copLog ∧
    SameSpecial s t

/-- Nothing changes but where control is, and the latch is cleared. -/
def ChangesNothing (s t : State) : Prop :=
  SameRegs s t ∧ Retires s t ∧ t.mulhi = none ∧ SameFlags s t ∧ SameMem s t ∧ t.copLog = s.copLog ∧ SameSpecial s t

/-- The transfer `tr` waits for its slot, the latch is cleared, and nothing else changes. -/
def TransfersOnly (s t : State) (tr : Transfer) : Prop :=
  SameRegs s t ∧ Defers s t tr ∧ t.mulhi = none ∧ SameFlags s t ∧ SameMem s t ∧ t.copLog = s.copLog ∧ SameSpecial s t

/-- Exception entry (R324): EPC holds the address of the raising instruction, PSR the super user default, `pc` EXCEP_ADDR,
`pend` and the latch are cleared, and nothing else changes. -/
def EntersException (s t : State) : Prop :=
  t.epc = s.pc ∧ t.pc = Config.excepAddr ∧ t.psr = ⟨.super, false, .il32, .set2, .set2⟩ ∧ t.pend = none ∧
    t.mulhi = none ∧ SameRegs s t ∧ SameFlags s t ∧ SameMem s t ∧ t.copLog = s.copLog ∧ t.psr2 = s.psr2 ∧
    t.hwstack = s.hwstack ∧ t.intpend = s.intpend ∧ t.imem = s.imem ∧ t.platform = s.platform ∧ t.env = s.env

/-! ### Statements about one instruction -/

/-- Where it gets to its rule, `i` answers a next state in which register `d` holds the value `P` describes, and nothing else
changes. -/
def Computes (i : Instr) (d : Reg) (P : State → Word → Prop) : Prop :=
  ∀ s, Executes i s → ∃ t v, exec i s = .next t ∧ WritesRegOnly s t d v ∧ P s v

/-- As `Computes`, with the three flags of `c[0]` written too. -/
def ComputesWithFlags (i : Instr) (d : Reg) (P : State → Word → Flags → Prop) : Prop :=
  ∀ s, Executes i s → ∃ t v f, exec i s = .next t ∧ P s v f ∧ WritesReg s t d v ∧ WritesFlags s t 0#3 f ∧
    Retires s t ∧ t.mulhi = none ∧ SameMem s t ∧ t.copLog = s.copLog ∧ SameSpecial s t

/-- As `Computes`, with the latch written too. -/
def ComputesWithLatch (i : Instr) (d : Reg) (P : State → Word → Word → Prop) : Prop :=
  ∀ s, Executes i s → ∃ t v high, exec i s = .next t ∧ P s v high ∧ WritesReg s t d v ∧ t.mulhi = some high ∧
    Retires s t ∧ SameFlags s t ∧ SameMem s t ∧ t.copLog = s.copLog ∧ SameSpecial s t

/-- Where it gets to its rule, `i` answers a next state in which the flags `P` describes are in `c[k]`, and nothing else
changes. -/
def ComparesInto (i : Instr) (k : CReg) (P : State → Flags → Prop) : Prop :=
  ∀ s, Executes i s → ∃ t f, exec i s = .next t ∧ P s f ∧ WritesFlags s t k f ∧ SameRegs s t ∧ Retires s t ∧
    t.mulhi = none ∧ SameMem s t ∧ t.copLog = s.copLog ∧ SameSpecial s t

/-- Outside a slot, where it gets to its rule, `i` answers a next state in which the exception is entered. -/
def RaisesWhere (i : Instr) (P : State → Prop) : Prop :=
  ∀ s, Executes i s → s.pend = none → P s → ∃ t, exec i s = .next t ∧ EntersException s t

/-- In a slot that it may fill, where it gets to its rule, `i` is refused for the exception it would raise there (R234 c). -/
def RefusedInSlotWhere (i : Instr) (P : State → Prop) : Prop :=
  ∀ s, Executes i s → s.pend ≠ none → P s → exec i s = .refused .exceptionInSlot

/-- A 32-bit signed result: -2^31 ... 2^31-1 (R140). -/
def FitsSigned (e : Int) : Prop := -2 ^ 31 ≤ e ∧ e ≤ 2 ^ 31 - 1

/-- The carry of a subtraction of `b` from `a` (R140): the borrow, in the sense SUB_CARRY_SENSE gives it. -/
def BorrowFlag (a b : Nat) (c : Bool) : Prop :=
  if Config.subCarryIsBorrow then (c = true ↔ a < b) else (c = true ↔ ¬ a < b)

/-- The address the load-store unit presents to memory: the sum modulo 2^32 with its two low bits low (R62, R260). -/
def wordAddress (s : State) (base : Reg) (off : Word) : Nat := (readReg s base + off).toNat / 4 * 4

/-- The word at `a` lies in one of the regions that hold memory (R65). -/
def HoldsMemory (s : State) (a : Nat) : Prop := ∃ r ∈ s.platform.regions, r.base ≤ a ∧ a + 4 ≤ r.base + r.size

/-- A byte of the word at `a` belongs to the program text (R72). -/
def IsProgramText (s : State) (a : Nat) : Prop := ∃ x ∈ s.imem, a ≤ x.1 ∧ x.1 < a + 4

/-- The PSR of super user code at its start, as the source words it (R280). -/
def superDefault : PSR := ⟨.super, false, .il32, .set2, .set2⟩

/-- What an instruction that takes no slot and raises nothing leaves apart from its own result, `p` the PSR it makes. -/
def RestSame (s t : State) (p : PSR) : Prop :=
  RetiresWith s t p ∧ t.mulhi = none ∧ SameMem s t ∧ SameSpecial s t

/-- `i` waits for its slot with the transfer `tr` pending and nothing else changed. -/
def TransfersTo (i : Instr) (tr : State → Transfer) : Prop :=
  ∀ s, Executes i s → ∃ t, exec i s = .next t ∧ TransfersOnly s t (tr s)

/-- `i` writes the link address to register 31 of the write set and waits for its slot, with `target` to follow. -/
def CallsTo (i : Instr) (target : State → Word) : Prop :=
  ∀ s, Executes i s → ∃ t, exec i s = .next t ∧ WritesReg s t 31#5 (s.pc + lengthNow s + lengthNow s) ∧
    Defers s t ⟨some (target s), none, false⟩ ∧ t.mulhi = none ∧ SameFlags s t ∧ SameMem s t ∧
    t.copLog = s.copLog ∧ SameSpecial s t

/-- The target of an immediate: the address of the slot plus twice the signed immediate (R233). -/
def targetOf (imm : Int) (s : State) : Word := s.pc + lengthNow s + BitVec.ofInt 32 (2 * imm)

/-- `i` is a branch on condition `cc` of `c[k]` to the target of `imm` (R233, R234): its slot follows whether it is taken or
not, and an ordered condition on Z = N = 1 is refused (R230). -/
def BranchesOn (i : Instr) (cc : Cond) (k : CReg) (imm : Int) : Prop :=
  ∀ s, Executes i s →
    (∀ taken, condHolds cc (s.creg k) = some taken →
      ∃ t, exec i s = .next t ∧
        TransfersOnly s t ⟨if taken then some (targetOf imm s) else none, none, false⟩) ∧
    (condHolds cc (s.creg k) = none → exec i s = .refused .conditionOnInconsistentFlags)

/-- The system call at `s` (R280). -/
def CallsSystem (i : Instr) : Prop :=
  ∀ s, Executes i s → ∃ t, exec i s = .next t ∧ t.psr2 = s.psr ∧
    WritesSr31 s t (s.pc + lengthNow s + lengthNow s) ∧
    Defers s t ⟨some Config.sysAddr, some superDefault, true⟩ ∧ t.mulhi = none ∧ SameFlags s t ∧ SameMem s t ∧
    t.copLog = s.copLog ∧ t.epc = s.epc ∧ t.hwstack = s.hwstack ∧ t.intpend = s.intpend ∧ t.imem = s.imem ∧
    t.platform = s.platform ∧ t.env = s.env

/-- `i` sends the operation `op` to coprocessor `n` and changes nothing of the core; with nothing attached at `n` it is
refused (R300). -/
def Sends (i : Instr) (n : CopNum) (op : State → CopOp) : Prop :=
  ∀ s, Executes i s →
    (s.attached n = true → ∃ t, exec i s = .next t ∧ t.copLog = s.copLog ++ [op s] ∧ SameRegs s t ∧ SameFlags s t ∧
      RestSame s t s.psr) ∧
    (s.attached n = false → exec i s = .refused .noCoprocessor)

/-- `i` reads register `r` of coprocessor `n` into register `d`, whatever the coprocessor answers; with nothing attached at
`n` it is refused (R300). -/
def Receives (i : Instr) (n : CopNum) (d r : Reg) : Prop :=
  ∀ s, Executes i s →
    (s.attached n = true → ∃ t v, exec i s = .next t ∧ WritesReg s t d v ∧ t.copLog = s.copLog ++ [.read n r] ∧
      SameFlags s t ∧ RestSame s t s.psr) ∧
    (s.attached n = false → exec i s = .refused .noCoprocessor)

/-! ### Sets of instructions -/

/-- `scall` in its three forms. -/
def isSystemCall : Instr → Bool
  | .scall | .scallCond .. | .scallShort => true
  | _ => false

/-- `reti` in its two forms. -/
def isInterruptReturn : Instr → Bool
  | .reti | .retiShort => true
  | _ => false

/-- The instructions that the first column of R29's table says write flags. -/
def writesFlags : Instr → Bool
  | .addiu .. | .addiuCond .. | .addiuShort .. | .addu .. | .adduCond .. | .adduShort .. | .subu .. | .subuCond ..
  | .subuShort .. | .cmp .. | .cmpShort .. | .cmpi .. | .cmpiShort .. | .rcon .. | .rconShort .. => true
  | _ => false

/-- The four multiplications with a high half, in their three forms (R210). -/
def isMultiply32 : Instr → Bool
  | .muli .. | .muliCond .. | .muliShort .. | .muls .. | .mulsCond .. | .mulsShort .. | .mulu .. | .muluCond ..
  | .muluShort .. | .mulus .. | .mulusCond .. | .mulusShort .. => true
  | _ => false

/-- Where a store puts its word (R260); the other instructions store nothing. -/
def storeAddress (s : State) : Instr → Option Nat
  | .st _ base imm => some (wordAddress s base (imm.signExtend 32))
  | .stCond _ _ _ base imm => some (wordAddress s base (imm.signExtend 32))
  | .stShort _ base imm => some (wordAddress s (wide base) (imm.signExtend 32))
  | _ => none

/-- Two outcomes that no one who cannot read set 2 can tell apart. -/
def SameUpToSet2 : Result → Result → Prop
  | .next t, .next u => u = { t with set2 := u.set2 }
  | .fault f, .fault g => f = g
  | .refused r, .refused q => r = q
  | _, _ => False

/-! ### One statement for the forms of a mnemonic

Each of these says a property of the 32-bit form, the conditional form and the 16-bit form of an instruction, with the
operands of each form as the spec gives them: a 16-bit operand names register 0...7 (R23). -/

/-- Three register operands; the 16-bit form `op dr, sr` has `sr` as first source and `dr` as second source and
destination. -/
def R3Forms (u : Reg → Reg → Reg → Instr) (c : Cond → CReg → Reg → Reg → Reg → Instr) (h : RegS → RegS → Instr)
    (P : Instr → Reg → Reg → Reg → Prop) : Prop :=
  (∀ d a b, P (u d a b) d a b) ∧ (∀ cc k d a b, P (c cc k d a b) d a b) ∧
    ∀ dr sr, P (h dr sr) (wide dr) (wide sr) (wide dr)

/-- Two register operands. -/
def R2Forms (u : Reg → Reg → Instr) (c : Cond → CReg → Reg → Reg → Instr) (h : RegS → RegS → Instr)
    (P : Instr → Reg → Reg → Prop) : Prop :=
  (∀ d a, P (u d a) d a) ∧ (∀ cc k d a, P (c cc k d a) d a) ∧ ∀ dr sr, P (h dr sr) (wide dr) (wide sr)

/-- One register operand. -/
def R1Forms (u : Reg → Instr) (c : Cond → CReg → Reg → Instr) (h : RegS → Instr) (P : Instr → Reg → Prop) : Prop :=
  (∀ a, P (u a) a) ∧ (∀ cc k a, P (c cc k a) a) ∧ ∀ r, P (h r) (wide r)

/-- A destination, a source and a signed immediate of 15, 9 or 7 bits; `op dr, imm` has `dr` for both registers. -/
def SignedImmForms (u : Reg → Reg → BitVec 15 → Instr) (c : Cond → CReg → Reg → Reg → BitVec 9 → Instr)
    (h : RegS → BitVec 7 → Instr) (P : Instr → Reg → Reg → Int → Prop) : Prop :=
  (∀ d a imm, P (u d a imm) d a imm.toInt) ∧ (∀ cc k d a imm, P (c cc k d a imm) d a imm.toInt) ∧
    ∀ dr imm, P (h dr imm) (wide dr) (wide dr) imm.toInt

/-- A destination, a source and an unsigned immediate of 15, 9 or 7 bits; `op dr, imm` has `dr` for both registers. -/
def UnsignedImmForms (u : Reg → Reg → BitVec 15 → Instr) (c : Cond → CReg → Reg → Reg → BitVec 9 → Instr)
    (h : RegS → BitVec 7 → Instr) (P : Instr → Reg → Reg → Nat → Prop) : Prop :=
  (∀ d a imm, P (u d a imm) d a imm.toNat) ∧ (∀ cc k d a imm, P (c cc k d a imm) d a imm.toNat) ∧
    ∀ dr imm, P (h dr imm) (wide dr) (wide dr) imm.toNat

/-- A destination, a source and an immediate of `n` bits in all three forms; `op dr, imm` has `dr` for both registers. -/
def FieldForms {n : Nat} (u : Reg → Reg → BitVec n → Instr) (c : Cond → CReg → Reg → Reg → BitVec n → Instr)
    (h : RegS → BitVec n → Instr) (P : Instr → Reg → Reg → Nat → Prop) : Prop :=
  (∀ d a imm, P (u d a imm) d a imm.toNat) ∧ (∀ cc k d a imm, P (c cc k d a imm) d a imm.toNat) ∧
    ∀ dr imm, P (h dr imm) (wide dr) (wide dr) imm.toNat

/-- A destination, a source and an immediate of `n` bits, the 16-bit form with two registers too. -/
def PartForms {n : Nat} (u : Reg → Reg → BitVec n → Instr) (c : Cond → CReg → Reg → Reg → BitVec n → Instr)
    (h : RegS → RegS → BitVec n → Instr) (P : Instr → Reg → Reg → Nat → Prop) : Prop :=
  (∀ d a imm, P (u d a imm) d a imm.toNat) ∧ (∀ cc k d a imm, P (c cc k d a imm) d a imm.toNat) ∧
    ∀ dr sr imm, P (h dr sr imm) (wide dr) (wide sr) imm.toNat

/-- The data or destination register, the base register and the signed offset of `ld` and `st`: 15, 9 or 4 bits. -/
def MemForms (u : Reg → Reg → BitVec 15 → Instr) (c : Cond → CReg → Reg → Reg → BitVec 9 → Instr)
    (h : RegS → RegS → BitVec 4 → Instr) (P : Instr → Reg → Reg → Word → Prop) : Prop :=
  (∀ d a imm, P (u d a imm) d a (imm.signExtend 32)) ∧
    (∀ cc k d a imm, P (c cc k d a imm) d a (imm.signExtend 32)) ∧
    ∀ dr sr imm, P (h dr sr imm) (wide dr) (wide sr) (imm.signExtend 32)

end Sys2Proof.Machine
end

