-- ==== Sys2Proof/Certificates/Slice0/Obligations.lean ====
section
/-! DEFINITION. The statements for the provers, from the numbered rules of spec/. The vocabulary is that of
Sys2Proof/Safety.lean. A docstring names the rules a statement formalises; where a clause rests on a choice of the
model, it names the log entry. -/

open Sys2Proof Sys2Proof.Machine

/-! ### The encoding -/

/-- R100 to R112: decoding the encoding of a well-formed instruction gives it back, every operand at every value. (The words
are the spec's reference encoding, log entry 1; the byte order in instruction memory is log entry 3.) -/
def Obligations.DecodeEncode : Prop := ∀ i, wellFormed i = true → decode i.mode (encode i) = .ok i

/-- The other direction: an accepted word is the encoding of what it decodes to, so no two words mean the same instruction
and no must-be-zero bit is dropped (R101, R103, R120). -/
def Obligations.EncodeDecode : Prop := ∀ il bytes i, decode il bytes = .ok i → i.mode = il ∧ encode i = bytes

/-- R113: the worked encodings. -/
def Obligations.WorkedEncodings : Prop :=
  decodeTableWord 32 0x00000823 = some (.add 3#5 1#5 2#5) ∧
  decodeTableWord 32 0x02D00823 = some (.addCond .eq 2#3 3#5 1#5 2#5) ∧
  decodeTableWord 32 0x05FFFC85 = some (.addi 5#5 4#5 (-1)) ∧
  decodeTableWord 32 0x0787FC85 = some (.addiCond .ne 0#3 5#5 4#5 (-1)) ∧
  decodeTableWord 16 0x000B = some (.addShort 3#3 1#3) ∧
  decodeTableWord 16 0x07FD = some (.addiShort 5#3 (-1)) ∧
  decodeTableWord 32 0x307FFFFE = some (.bne 1#3 (-2)) ∧
  decodeTableWord 32 0x3C400C84 = some (.cmpi 1#3 4#5 100) ∧
  decodeTableWord 32 0xDC0020C7 = some (.st 7#5 6#5 8) ∧
  decodeTableWord 32 0x4A123456 = some (.cop 2#2 0x123456#24) ∧
  decodeTableWord 32 0xE8000010 = some (.swm 16#6) ∧
  decodeTableWord 16 0xE820 = some (.swmShort 32#6)

/-- R120: the classes of illegal words that the rule names by their fields: unassigned primary opcodes, `fn` 6 and 7, `cond`
= 7, `cx` = 1 where there is no conditional form, and the 32-bit-only instructions in 16-bit mode. -/
def Obligations.IllegalWordsRejected : Prop :=
  (∀ w : Word,
    (61 ≤ w.toNat / 2 ^ 26 ∨
      (w.toNat / 2 ^ 26 = 60 ∧ 6 ≤ w.toNat % 8) ∨
      (w.toNat / 2 ^ 26 ≠ 18 ∧ w.getLsbD 25 = true ∧ w.toNat / 2 ^ 22 % 8 = 7) ∨
      (w.toNat / 2 ^ 26 ∈ [6, 7, 8, 9, 10, 11, 12, 13, 14, 15, 21, 23, 25, 28, 29, 44, 46, 58, 60] ∧
        w.getLsbD 25 = true)) →
    ∃ why, decode .il32 (bytesOfWord w) = .error why) ∧
  ∀ h : Half,
    (61 ≤ h.toNat / 2 ^ 10 ∨ h.toNat / 2 ^ 10 ∈ [18, 21, 28, 29] ∨ (h.toNat / 2 ^ 10 = 60 ∧ 6 ≤ h.toNat % 8)) →
    ∃ why, decode .il16 (bytesOfHalf h) = .error why

/-! ### One step -/

/-- R231: where no interrupt is taken and the bytes at an aligned `pc` decode to `i`, the step is `exec` of `i`, at the state
with the requests of this boundary added to the pending ones (R330; with the environment's script used up nothing is
added, log entry 16). -/
def Obligations.StepRunsDecoded : Prop :=
  ∀ s bytes i, s.takenInterrupt = none → s.pc.toNat % s.psr.il.bytes = 0 →
    readBytes s.imem s.pc.toNat s.psr.il.bytes = some bytes → decode s.psr.il bytes = .ok i →
    step s = exec i s.absorb ∧
      s.absorb = { s with intpend := s.absorb.intpend, env := s.env.tail } ∧ (s.env = [] → s.absorb = s)

/-- R71, R73, R120: a misaligned `pc` and a word that decodes to nothing are refused, and a fetch where instruction memory
is not defined faults (log entry 22). -/
def Obligations.FetchStops : Prop :=
  ∀ s, s.takenInterrupt = none →
    (¬ s.pc.toNat % s.psr.il.bytes = 0 → step s = .refused .misalignedFetch) ∧
    (s.pc.toNat % s.psr.il.bytes = 0 → readBytes s.imem s.pc.toNat s.psr.il.bytes = none →
      step s = .fault .undefinedFetch) ∧
    ∀ bytes why, s.pc.toNat % s.psr.il.bytes = 0 →
      readBytes s.imem s.pc.toNat s.psr.il.bytes = some bytes → decode s.psr.il bytes = .error why →
      step s = .refused (.illegalEncoding why)

/-- R331, R332: where IE = 1, no transfer is pending and the environment takes the interrupt, the source that is served
before every other pending one is entered: (PC, PSR) is pushed, the request is served, and control is at its handler;
with the hardware stack full the entry is refused. (The environment's script and the ranks: log entry 16.) -/
def Obligations.InterruptEntry : Prop :=
  ∀ s requests rest src, s.env = ⟨requests, true⟩ :: rest → s.psr.ie = true → s.pend = none →
    (src ∈ s.intpend ∨ src ∈ requests) →
    (∀ n, n ∈ s.intpend ∨ n ∈ requests → n ≠ src → servedBefore src n = true) →
    (s.hwstack.length < Config.hwStackDepth →
      ∃ t, step s = .next t ∧ t.hwstack = ⟨s.pc, s.psr⟩ :: s.hwstack ∧
        (∀ n, n ∈ t.intpend ↔ n ≠ src ∧ (n ∈ s.intpend ∨ n ∈ requests)) ∧ t.psr = superDefault ∧
        t.pc = Config.intAddr src ∧ t.mulhi = none ∧ t.pend = none ∧ SameRegs s t ∧ SameFlags s t ∧ SameMem s t ∧
        t.copLog = s.copLog ∧ t.psr2 = s.psr2 ∧ t.epc = s.epc ∧ t.imem = s.imem ∧ t.platform = s.platform ∧
        t.env = rest) ∧
    (¬ s.hwstack.length < Config.hwStackDepth → step s = .refused .hwStackOverflow)

/-- R331: with IE = 0, in a slot, with nothing pending, or where the environment does not take it, no interrupt is taken, and
every request stays pending over the instruction that runs instead. (That the environment is a script, whose `take` is its
choice, and that a used-up script, `s.env = []`, takes no due interrupt is the model's choice, log entry 16; R331 leaves
both to the environment.) -/
def Obligations.InterruptHeldOff : Prop :=
  ∀ s, (s.psr.ie = false ∨ s.pend ≠ none ∨ s.env = [] ∨ s.boundary.take = false ∨
      (s.intpend = [] ∧ s.boundary.requests = [])) →
    s.takenInterrupt = none ∧
      ∀ t, step s = .next t → ∀ n, n ∈ s.intpend ∨ n ∈ s.boundary.requests → n ∈ t.intpend

/-! ### Invariants and rules about the whole machine -/

/-- The state after reset is legal. -/
def Obligations.ResetIsLegal : Prop := State.reset.Inv

/-- Every step from a legal state leads to a legal state: the memories keep their canonical form, the hardware stack stays
within its depth (R34), user mode keeps to set 1 (R22), and a pending PSR change waits for a `nop` (R27). -/
def Obligations.StepKeepsInv : Prop := ∀ s t, s.Inv → step s = .next t → t.Inv

/-- R50, R370: what the spec says the state after reset is. -/
def Obligations.ResetValues : Prop :=
  State.reset.pend = none ∧ State.reset.psr = ⟨.super, false, .il32, .set2, .set2⟩ ∧ State.reset.hwstack = [] ∧
    State.reset.mulhi = none ∧ State.reset.intpend = [] ∧ State.reset.pc.toNat % 4 = 0

/-- R72, R83: no step changes instruction memory, nor the parameters of the platform. -/
def Obligations.CodeIsFixed : Prop := ∀ s t, step s = .next t → t.imem = s.imem ∧ t.platform = s.platform

/-- R22, R345: in user mode, with the selectors as user mode has them, no register of set 2 changes but SR31, and that only
by a `scall`, which puts its link address there. -/
def Obligations.UserLeavesSet2 : Prop :=
  ∀ s t r, s.psr.um = .user → s.psr.Legal → step s = .next t → regOf t.set2 r ≠ regOf s.set2 r →
    r = 31#5 ∧ regOf t.set2 r = s.pc + lengthNow s + lengthNow s ∧ ∃ i, fetch s = .next i ∧ isSystemCall i = true

/-- R271, R345: the user cannot see the register set intended only for super user: steps from two states of user mode that
differ in set 2 alone stop for the same reason or lead to states that differ in set 2 alone. (Both machines have the same
coprocessors and the same overrun values, by the model's choice. A coprocessor read, `movdfc` or `movcfc`, is one function
of the operations sent, log entry 17, which is unsafe here: R300 draws a value for each read. A bit field past bit 31,
`exbf` or `exbfi`, is one function of the source, the length and the position, log entry 15: R180 leaves it open.) -/
def Obligations.UserCannotSeeSet2 : Prop :=
  ∀ s other, s.psr.um = .user → s.psr.Legal → SameUpToSet2 (step s) (step { s with set2 := other })

/-- R345: user mode is left only by an exception, an interrupt or the slot of a transfer already pending, and always into the
super user default; and a transfer that leaves user mode is made pending only by `scall`. -/
def Obligations.LeavingUserMode : Prop :=
  ∀ s t, s.Inv → s.psr.um = .user → step s = .next t →
    (t.psr.um = .super →
      t.psr = superDefault ∧
        ((t.pc = Config.excepAddr ∧ t.epc = s.pc) ∨
          (∃ src, t.pc = Config.intAddr src ∧ t.hwstack = ⟨s.pc, s.psr⟩ :: s.hwstack) ∨
          ∃ tr, s.pend = some tr ∧ tr.newPSR = some t.psr)) ∧
    ∀ tr p, t.pend = some tr → tr.newPSR = some p → p.um = .super → ∃ i, fetch s = .next i ∧ isSystemCall i = true

/-- R29, R28: no step changes a flag but by one of the instructions the rule lists as writers. -/
def Obligations.FlagWriters : Prop :=
  ∀ s t k, step s = .next t → t.creg k ≠ s.creg k → ∃ i, fetch s = .next i ∧ writesFlags i = true

/-- R35, R210: the latch holds a value after a step only if that step ran one of the four multiplications, executed and not
skipped. -/
def Obligations.LatchWriters : Prop :=
  ∀ s t, step s = .next t → t.mulhi ≠ none →
    ∃ i, fetch s = .next i ∧ isMultiply32 i = true ∧ Executes i s = true

/-- R283, R32 to R34: PSR_2 changes only by `scall`, to the PSR; EPC only by exception entry, to the address of the raising
instruction; the hardware stack only by an interrupt, which pushes, and by `reti`, which pops. -/
def Obligations.SpecialRegisterWriters : Prop :=
  ∀ s t, step s = .next t →
    (t.psr2 ≠ s.psr2 → t.psr2 = s.psr ∧ ∃ i, fetch s = .next i ∧ isSystemCall i = true) ∧
    (t.epc ≠ s.epc → t.epc = s.pc ∧ t.pc = Config.excepAddr ∧ t.psr = superDefault) ∧
    (t.hwstack ≠ s.hwstack →
      (∃ src, s.takenInterrupt = some src ∧ t.hwstack = ⟨s.pc, s.psr⟩ :: s.hwstack) ∨
        (t.hwstack = s.hwstack.tail ∧ ∃ i, fetch s = .next i ∧ isInterruptReturn i = true))

/-- R263: a step changes a byte of data memory only by a store, and only within the word the store addresses. -/
def Obligations.MemoryWriters : Prop :=
  ∀ s t a, step s = .next t → readByte t.dmem a ≠ readByte s.dmem a →
    ∃ i w, fetch s = .next i ∧ storeAddress s i = some w ∧ w ≤ a ∧ a < w + 4

/-! ### Branch slots and conditions -/

/-- R27, R231: an instruction that completes in a slot is followed by the pending transfer: `pc` is its target if it has one
and past the slot otherwise, PSR is its new PSR if it has one, and nothing is pending any more. -/
def Obligations.SlotCompletes : Prop :=
  ∀ i s t tr, s.pend = some tr → exec i s = .next t →
    t.pc = tr.target.getD (s.pc + lengthNow s) ∧ (∀ p, tr.newPSR = some p → t.psr = p) ∧ t.pend = none

/-- R234 b, c, R321 to R323: a slot-bearing instruction in a slot, anything but `nop` in a slot that must hold a `nop`, and
an exception raised in a slot (`trap`; `chrs` in user mode; an overflow of `add`, `addi` or `sub`, in every form) are
refused. -/
def Obligations.SlotRestrictions : Prop :=
  (∀ s tr i, s.pend = some tr → i.slotRole = .bearing → exec i s = .refused .transferInSlot) ∧
  (∀ s tr i, s.pend = some tr → i.slotRole = .plain → tr.mustBeNop = true → exec i s = .refused .slotMustBeNop) ∧
  RefusedInSlotWhere .trap (fun _ => True) ∧ RefusedInSlotWhere .trapShort (fun _ => True) ∧
  (∀ imm, RefusedInSlotWhere (.chrs imm) fun s => s.psr.um = .user) ∧
  (∀ imm, RefusedInSlotWhere (.chrsShort imm) fun s => s.psr.um = .user) ∧
  (R3Forms .add .addCond .addShort fun i _ a b =>
    RefusedInSlotWhere i fun s => ¬ FitsSigned ((readReg s a).toInt + (readReg s b).toInt)) ∧
  (SignedImmForms .addi .addiCond .addiShort fun i _ a imm =>
    RefusedInSlotWhere i fun s => ¬ FitsSigned ((readReg s a).toInt + imm)) ∧
  (R3Forms .sub .subCond .subShort fun i _ a b =>
    RefusedInSlotWhere i fun s => ¬ FitsSigned ((readReg s a).toInt - (readReg s b).toInt))

/-- R232, R234 a: a conditional form whose condition is false does nothing but go on, for all 43 of them; a slot-bearing one
still makes the next instruction its slot, which must be a `nop` for `scall`. -/
def Obligations.SkippedForms : Prop :=
  ∀ i s cc k, i.condition? = some (cc, k) → fitsSlot i s = true → condHolds cc (s.creg k) = some false →
    ∃ t, exec i s = .next t ∧
      (i.slotRole ≠ .bearing → ChangesNothing s t) ∧
      (i.slotRole = .bearing → TransfersOnly s t ⟨none, none, isSystemCall i⟩)

/-- R230: a conditional form that tests `lt`, `egt`, `gt` or `elt` on Z = N = 1 is refused, and `c`, `eq` and `ne` never
are. -/
def Obligations.InconsistentCondition : Prop :=
  ∀ i s cc k, i.condition? = some (cc, k) → fitsSlot i s = true → (s.creg k).z = true → (s.creg k).n = true →
    (cc ∈ [.lt, .egt, .gt, .elt] → exec i s = .refused .conditionOnInconsistentFlags) ∧
    (cc ∈ [.c, .eq, .ne] → exec i s ≠ .refused .conditionOnInconsistentFlags)

/-- R230: the table of the conditions over the flags. -/
def Obligations.ConditionTable : Prop :=
  ∀ z n c,
    condHolds .c ⟨z, n, c⟩ = some c ∧ condHolds .eq ⟨z, n, c⟩ = some z ∧ condHolds .ne ⟨z, n, c⟩ = some (!z) ∧
    (¬ (z = true ∧ n = true) →
      condHolds .lt ⟨z, n, c⟩ = some (decide (n = true ∧ z = false)) ∧
      condHolds .egt ⟨z, n, c⟩ = some (decide (n = false ∨ z = true)) ∧
      condHolds .gt ⟨z, n, c⟩ = some (decide (n = false ∧ z = false)) ∧
      condHolds .elt ⟨z, n, c⟩ = some (decide (n = true ∨ z = true))) ∧
    (z = true ∧ n = true →
      condHolds .lt ⟨z, n, c⟩ = none ∧ condHolds .egt ⟨z, n, c⟩ = none ∧ condHolds .gt ⟨z, n, c⟩ = none ∧
      condHolds .elt ⟨z, n, c⟩ = none)

/-- R230, R140: after `cmp` and `cmpi`, each of the six conditions on order holds of the condition register they name, `c[0]`
in 16-bit mode, exactly when its name is true of the signed comparison of the register with the register or the immediate,
for every pair of values. -/
def Obligations.ConditionAfterCompare : Prop :=
  let orders (f : Flags) (a b : Int) : Prop :=
    condHolds .eq f = some (decide (a = b)) ∧ condHolds .ne f = some (decide (a ≠ b)) ∧
      condHolds .lt f = some (decide (a < b)) ∧ condHolds .egt f = some (decide (a ≥ b)) ∧
      condHolds .gt f = some (decide (a > b)) ∧ condHolds .elt f = some (decide (a ≤ b))
  ∀ s t,
    (∀ k a b, exec (.cmp k a b) s = .next t → orders (t.creg k) (readReg s a).toInt (readReg s b).toInt) ∧
    (∀ a b, exec (.cmpShort a b) s = .next t →
      orders (t.creg 0#3) (readReg s (wide a)).toInt (readReg s (wide b)).toInt) ∧
    (∀ k a imm, exec (.cmpi k a imm) s = .next t → orders (t.creg k) (readReg s a).toInt imm.toInt) ∧
    ∀ a imm, exec (.cmpiShort a imm) s = .next t → orders (t.creg 0#3) (readReg s (wide a)).toInt imm.toInt

/-! ### Arithmetic -/

/-- R141, R142, R145: where the exact signed result fits in 32 bits, `add`, `addi` and `sub` write it and change nothing
else; no flag is written. -/
def Obligations.SignedAddSub : Prop :=
  (R3Forms .add .addCond .addShort fun i d a b => ∀ s, Executes i s →
    FitsSigned ((readReg s a).toInt + (readReg s b).toInt) →
    ∃ t v, exec i s = .next t ∧ v.toInt = (readReg s a).toInt + (readReg s b).toInt ∧ WritesRegOnly s t d v) ∧
  (SignedImmForms .addi .addiCond .addiShort fun i d a imm => ∀ s, Executes i s →
    FitsSigned ((readReg s a).toInt + imm) →
    ∃ t v, exec i s = .next t ∧ v.toInt = (readReg s a).toInt + imm ∧ WritesRegOnly s t d v) ∧
  (R3Forms .sub .subCond .subShort fun i d a b => ∀ s, Executes i s →
    FitsSigned ((readReg s a).toInt - (readReg s b).toInt) →
    ∃ t v, exec i s = .next t ∧ v.toInt = (readReg s a).toInt - (readReg s b).toInt ∧ WritesRegOnly s t d v)

/-- R322, R324: where the exact signed result does not fit, `add`, `addi` and `sub`, outside a slot, raise Overflow: the
exception is entered and nothing else is written. -/
def Obligations.SignedOverflow : Prop :=
  (R3Forms .add .addCond .addShort fun i _ a b =>
    RaisesWhere i fun s => ¬ FitsSigned ((readReg s a).toInt + (readReg s b).toInt)) ∧
  (SignedImmForms .addi .addiCond .addiShort fun i _ a imm =>
    RaisesWhere i fun s => ¬ FitsSigned ((readReg s a).toInt + imm)) ∧
  (R3Forms .sub .subCond .subShort fun i _ a b =>
    RaisesWhere i fun s => ¬ FitsSigned ((readReg s a).toInt - (readReg s b).toInt))

/-- R143, R144, R146, R140: `addu`, `addiu` and `subu` write the result modulo 2^32 and its flags in `c[0]`, in every form.
(The sense of C after `subu` is the open parameter SUB_CARRY_SENSE, log entry 13.) -/
def Obligations.UnsignedAddSub : Prop :=
  (R3Forms .addu .adduCond .adduShort fun i d a b => ComputesWithFlags i d fun s v f =>
    let sum := (readReg s a).toNat + (readReg s b).toNat
    v.toNat = sum % 2 ^ 32 ∧ f = ⟨decide (v.toNat = 0), decide (2 ^ 31 ≤ v.toNat), decide (2 ^ 32 ≤ sum)⟩) ∧
  (UnsignedImmForms .addiu .addiuCond .addiuShort fun i d a imm => ComputesWithFlags i d fun s v f =>
    let sum := (readReg s a).toNat + imm
    v.toNat = sum % 2 ^ 32 ∧ f = ⟨decide (v.toNat = 0), decide (2 ^ 31 ≤ v.toNat), decide (2 ^ 32 ≤ sum)⟩) ∧
  (R3Forms .subu .subuCond .subuShort fun i d a b => ComputesWithFlags i d fun s v f =>
    (v.toNat : Int) = ((readReg s a).toNat - (readReg s b).toNat : Int) % 2 ^ 32 ∧ f.z = decide (v.toNat = 0) ∧
      f.n = decide (2 ^ 31 ≤ v.toNat) ∧ BorrowFlag (readReg s a).toNat (readReg s b).toNat f.c)

/-- R147, R148, R140: `cmp` and `cmpi` write Z, N and C of the condition register they name, `c[0]` in 16-bit mode, from the
exact signed difference, and nothing else. (The sense of C: log entry 13.) -/
def Obligations.Compare : Prop :=
  let flags (s : State) (a : Reg) (b : Int) (f : Flags) : Prop :=
    f.z = decide ((readReg s a).toInt = b) ∧ f.n = decide ((readReg s a).toInt < b) ∧
      BorrowFlag (readReg s a).toNat (BitVec.ofInt 32 b).toNat f.c
  (∀ k a b, ComparesInto (.cmp k a b) k fun s f => flags s a (readReg s b).toInt f) ∧
  (∀ a b, ComparesInto (.cmpShort a b) 0#3 fun s f => flags s (wide a) (readReg s (wide b)).toInt f) ∧
  (∀ k a imm, ComparesInto (.cmpi k a imm) k fun s f => flags s a imm.toInt f) ∧
  ∀ a imm, ComparesInto (.cmpiShort a imm) 0#3 fun s f => flags s (wide a) imm.toInt f

/-! ### Logic, moves and constants -/

/-- R160 to R166: `and`, `andi`, `or`, `ori`, `xor`, `not` and `mov` write, bit for bit, the Boolean operation on their
sources, the immediates zero extended, and nothing else. -/
def Obligations.Logic : Prop :=
  (R3Forms .and .andCond .andShort fun i d a b => Computes i d fun s v =>
    ∀ n, n < 32 → v.getLsbD n = ((readReg s a).getLsbD n && (readReg s b).getLsbD n)) ∧
  (UnsignedImmForms .andi .andiCond .andiShort fun i d a imm => Computes i d fun s v =>
    ∀ n, n < 32 → v.getLsbD n = ((readReg s a).getLsbD n && imm.testBit n)) ∧
  (R3Forms .or .orCond .orShort fun i d a b => Computes i d fun s v =>
    ∀ n, n < 32 → v.getLsbD n = ((readReg s a).getLsbD n || (readReg s b).getLsbD n)) ∧
  (UnsignedImmForms .ori .oriCond .oriShort fun i d a imm => Computes i d fun s v =>
    ∀ n, n < 32 → v.getLsbD n = ((readReg s a).getLsbD n || imm.testBit n)) ∧
  (R3Forms .xor .xorCond .xorShort fun i d a b => Computes i d fun s v =>
    ∀ n, n < 32 → v.getLsbD n = ((readReg s a).getLsbD n ^^ (readReg s b).getLsbD n)) ∧
  (R2Forms .not .notCond .notShort fun i d a => Computes i d fun s v =>
    ∀ n, n < 32 → v.getLsbD n = !(readReg s a).getLsbD n) ∧
  R2Forms .mov .movCond .movShort fun i d a => Computes i d fun s v => v = readReg s a

/-- R167, R168: `lli` loads the lower half and clears the upper, `lui` loads the upper half and clears the lower. -/
def Obligations.LoadConstants : Prop :=
  (∀ d imm, Computes (.lli d imm) d fun _ v => v.toNat = imm.toNat) ∧
  ∀ d imm, Computes (.lui d imm) d fun _ v => v.toNat = imm.toNat * 2 ^ 16

/-! ### Bytes, bit fields, sign extension, shifts -/

/-- R181 to R184: `conb` and `conh` join the low bytes and halves of their sources, the first source the more significant;
`exb` and `exh` extract the byte and the half their immediate numbers, zero extended. -/
def Obligations.BytesAndHalves : Prop :=
  (R3Forms .conb .conbCond .conbShort fun i d a b => Computes i d fun s v =>
    v.toNat = (readReg s a).toNat % 2 ^ 8 * 2 ^ 8 + (readReg s b).toNat % 2 ^ 8) ∧
  (R3Forms .conh .conhCond .conhShort fun i d a b => Computes i d fun s v =>
    v.toNat = (readReg s a).toNat % 2 ^ 16 * 2 ^ 16 + (readReg s b).toNat % 2 ^ 16) ∧
  (PartForms .exb .exbCond .exbShort fun i d a imm => Computes i d fun s v =>
    v.toNat = (readReg s a).toNat / 2 ^ (8 * imm) % 2 ^ 8) ∧
  PartForms .exh .exhCond .exhShort fun i d a imm => Computes i d fun s v =>
    v.toNat = (readReg s a).toNat / 2 ^ (16 * imm) % 2 ^ 16

/-- R187, R188: `sexti` and `sext` keep the bits up to the sign position and copy the sign bit into every bit above it; of
the position register of `sext` only bits 4:0 count. -/
def Obligations.SignExtension : Prop :=
  (FieldForms .sexti .sextiCond .sextiShort fun i d a p => Computes i d fun s v =>
    ∀ n, n < 32 → v.getLsbD n = (readReg s a).getLsbD (min n p)) ∧
  R3Forms .sext .sextCond .sextShort fun i d a b => Computes i d fun s v =>
    ∀ n, n < 32 → v.getLsbD n = (readReg s a).getLsbD (min n ((readReg s b).toNat % 32))

/-- R185, R186: `exbfi` and `exbf` extract the field whose length is bits 10:5 and whose position is bits 4:0 of the control
value, zero extended, where it lies within the register; bits 31:11 of the control register of `exbf` are ignored. -/
def Obligations.BitFields : Prop :=
  (∀ d a (imm : BitVec 11), ∀ s, Executes (.exbfi d a imm) s → imm.toNat % 32 + imm.toNat / 32 ≤ 32 →
    ∃ t v, exec (.exbfi d a imm) s = .next t ∧ WritesRegOnly s t d v ∧
      v.toNat = (readReg s a).toNat / 2 ^ (imm.toNat % 32) % 2 ^ (imm.toNat / 32)) ∧
  R3Forms .exbf .exbfCond .exbfShort fun i d a b => ∀ s, Executes i s →
    (readReg s b).toNat % 32 + (readReg s b).toNat / 32 % 64 ≤ 32 →
    ∃ t v, exec i s = .next t ∧ WritesRegOnly s t d v ∧
      v.toNat = (readReg s a).toNat / 2 ^ ((readReg s b).toNat % 32) % 2 ^ ((readReg s b).toNat / 32 % 64)

/-- R180: past bit 31 the value is the open parameter EXBF_OVERRUN. The model's choice (log entry 15): the instruction runs
all the same, some value is in the destination, the same for the same value, length and position, and nothing else
changes. -/
def Obligations.BitFieldOverrun : Prop :=
  ∃ overrun : Word → Nat → Nat → Word,
    (∀ d a (imm : BitVec 11), ∀ s, Executes (.exbfi d a imm) s → ¬ imm.toNat % 32 + imm.toNat / 32 ≤ 32 →
      ∃ t, exec (.exbfi d a imm) s = .next t ∧
        WritesRegOnly s t d (overrun (readReg s a) (imm.toNat / 32) (imm.toNat % 32))) ∧
    R3Forms .exbf .exbfCond .exbfShort fun i d a b => ∀ s, Executes i s →
      ¬ (readReg s b).toNat % 32 + (readReg s b).toNat / 32 % 64 ≤ 32 →
      ∃ t, exec i s = .next t ∧
        WritesRegOnly s t d (overrun (readReg s a) ((readReg s b).toNat / 32 % 64) ((readReg s b).toNat % 32))

/-- R189, R190, R192, R194: `sll`, `srl` and `sra` shift by bits 5:0 of the second source, more than 32 positions counting
as 32. (That copies of bit 31 enter in `sra` is the spec's own inference, log entry 30.) -/
def Obligations.RegisterShifts : Prop :=
  let amount (s : State) (b : Reg) : Nat := min ((readReg s b).toNat % 64) 32
  (R3Forms .sll .sllCond .sllShort fun i d a b => Computes i d fun s v =>
    v.toNat = (readReg s a).toNat * 2 ^ amount s b % 2 ^ 32) ∧
  (R3Forms .srl .srlCond .srlShort fun i d a b => Computes i d fun s v =>
    v.toNat = (readReg s a).toNat / 2 ^ amount s b) ∧
  R3Forms .sra .sraCond .sraShort fun i d a b => Computes i d fun s v =>
    v.toInt = (readReg s a).toInt / 2 ^ amount s b

/-- R189, R191, R193, R195: `slli`, `srli` and `srai` shift by an immediate of 0...32; one of 33...63 is refused.
(That copies of bit 31 enter in `srai` is the spec's own inference, log entry 30.) -/
def Obligations.ImmediateShifts : Prop :=
  let shifts (i : Instr) (d : Reg) (imm : Nat) (P : State → Word → Prop) : Prop :=
    (imm ≤ 32 → Computes i d P) ∧ (32 < imm → ∀ s, Executes i s → exec i s = .refused .shiftImmediateRange)
  (FieldForms .slli .slliCond .slliShort fun i d a imm => shifts i d imm fun s v =>
    v.toNat = (readReg s a).toNat * 2 ^ imm % 2 ^ 32) ∧
  (FieldForms .srli .srliCond .srliShort fun i d a imm => shifts i d imm fun s v =>
    v.toNat = (readReg s a).toNat / 2 ^ imm) ∧
  FieldForms .srai .sraiCond .sraiShort fun i d a imm => shifts i d imm fun s v =>
    v.toInt = (readReg s a).toInt / 2 ^ imm

/-! ### Multiplication -/

/-- R211 to R214: `muli`, `muls`, `mulu` and `mulus` write the low half of the exact 64-bit product to their destination and
its high half to the latch. -/
def Obligations.Multiply : Prop :=
  (SignedImmForms .muli .muliCond .muliShort fun i d a imm => ComputesWithLatch i d fun s v high =>
    (high ++ v).toInt = (readReg s a).toInt * imm) ∧
  (R3Forms .muls .mulsCond .mulsShort fun i d a b => ComputesWithLatch i d fun s v high =>
    (high ++ v).toInt = (readReg s a).toInt * (readReg s b).toInt) ∧
  (R3Forms .mulu .muluCond .muluShort fun i d a b => ComputesWithLatch i d fun s v high =>
    (high ++ v).toNat = (readReg s a).toNat * (readReg s b).toNat) ∧
  R3Forms .mulus .mulusCond .mulusShort fun i d a b => ComputesWithLatch i d fun s v high =>
    (high ++ v).toInt = (readReg s a).toNat * (readReg s b).toInt

/-- R215 to R217: `muls_16`, `mulu_16` and `mulus_16` write the exact product of the low halfwords of their sources and
clear the latch. -/
def Obligations.MultiplyHalves : Prop :=
  let signedHalf (v : Word) : Int := if v.toNat % 2 ^ 16 < 2 ^ 15 then v.toNat % 2 ^ 16 else v.toNat % 2 ^ 16 - 2 ^ 16
  (R3Forms .muls16 .muls16Cond .muls16Short fun i d a b => Computes i d fun s v =>
    v.toInt = signedHalf (readReg s a) * signedHalf (readReg s b)) ∧
  (R3Forms .mulu16 .mulu16Cond .mulu16Short fun i d a b => Computes i d fun s v =>
    v.toNat = (readReg s a).toNat % 2 ^ 16 * ((readReg s b).toNat % 2 ^ 16)) ∧
  R3Forms .mulus16 .mulus16Cond .mulus16Short fun i d a b => Computes i d fun s v =>
    v.toInt = ((readReg s a).toNat % 2 ^ 16 : Nat) * signedHalf (readReg s b)

/-- R218: `mulhi` writes the latch to its destination and clears it, and is refused where the previous instruction left
none. -/
def Obligations.MultiplyHigh : Prop :=
  R1Forms .mulhi .mulhiCond .mulhiShort fun i d => ∀ s, Executes i s →
    (∀ high, s.mulhi = some high → ∃ t, exec i s = .next t ∧ WritesRegOnly s t d high) ∧
    (s.mulhi = none → exec i s = .refused .mulhiWithoutMultiply)

/-- R219: for the same two values `muls`, `mulu` and `mulus` write the same low word. -/
def Obligations.LowWordsAgree : Prop :=
  ∀ s d a b t u v, exec (.muls d a b) s = .next t → exec (.mulu d a b) s = .next u →
    exec (.mulus d a b) s = .next v → u.set1 = t.set1 ∧ u.set2 = t.set2 ∧ v.set1 = t.set1 ∧ v.set2 = t.set2

/-! ### Control transfer -/

/-- R235 to R241, R233: the seven branches, in both modes. -/
def Obligations.Branches : Prop :=
  let forms (cc : Cond) (u : CReg → BitVec 22 → Instr) (h : BitVec 10 → Instr) : Prop :=
    (∀ k imm, BranchesOn (u k imm) cc k imm.toInt) ∧ ∀ imm, BranchesOn (h imm) cc 0#3 imm.toInt
  forms .c .bc .bcShort ∧ forms .egt .begt .begtShort ∧ forms .elt .belt .beltShort ∧ forms .eq .beq .beqShort ∧
    forms .gt .bgt .bgtShort ∧ forms .lt .blt .bltShort ∧ forms .ne .bne .bneShort

/-- R245, R246: `jmp` transfers to the target of its immediate, `jmpr` to the unmasked value of its register, after the
slot. -/
def Obligations.Jumps : Prop :=
  (∀ imm, TransfersTo (.jmp imm) fun s => ⟨some (targetOf imm.toInt s), none, false⟩) ∧
  (∀ imm, TransfersTo (.jmpShort imm) fun s => ⟨some (targetOf imm.toInt s), none, false⟩) ∧
  R1Forms .jmpr .jmprCond .jmprShort fun i a => TransfersTo i fun s => ⟨some (readReg s a), none, false⟩

/-- R242 to R244: `jal` and `jalr` write the link address to register 31 of the write set and transfer after the slot;
`jalr` reads its target before the link is written. -/
def Obligations.Calls : Prop :=
  (∀ imm, CallsTo (.jal imm) fun s => targetOf imm.toInt s) ∧
  (∀ imm, CallsTo (.jalShort imm) fun s => targetOf imm.toInt s) ∧
  R1Forms .jalr .jalrCond .jalrShort fun i a => CallsTo i fun s => readReg s a

/-- R247: `nop` changes nothing but `pc` (and the latch, R210), in any place. -/
def Obligations.NopIdles : Prop :=
  ∀ s, (∃ t, exec .nop s = .next t ∧ ChangesNothing s t) ∧ ∃ t, exec .nopShort s = .next t ∧ ChangesNothing s t

/-! ### Memory -/

/-- R261, R260: where the addressed word lies in memory and its four bytes hold values, `ld` writes the word and nothing
else. (Which byte is the most significant is unobservable, R64: the model's choice, log entry 4.) -/
def Obligations.Load : Prop :=
  MemForms .ld .ldCond .ldShort fun i d base off => ∀ s b3 b2 b1 b0, Executes i s →
    HoldsMemory s (wordAddress s base off) →
    readByte s.dmem (wordAddress s base off) = some b3 → readByte s.dmem (wordAddress s base off + 1) = some b2 →
    readByte s.dmem (wordAddress s base off + 2) = some b1 → readByte s.dmem (wordAddress s base off + 3) = some b0 →
    ∃ t, exec i s = .next t ∧ WritesRegOnly s t d (b3 ++ b2 ++ b1 ++ b0)

/-- R262, R260: where the addressed word lies in memory and not in the program text (or the memories are known to be
separate), `st` puts its register there; every other byte of memory reads as before, and nothing else changes. (Byte
order: log entry 4.) -/
def Obligations.Store : Prop :=
  MemForms .st .stCond .stShort fun i b base off => ∀ s, Executes i s → HoldsMemory s (wordAddress s base off) →
    (¬ IsProgramText s (wordAddress s base off) ∨ s.platform.unified = .separate) →
    ∃ t, exec i s = .next t ∧
      (∀ k : Nat, k < 4 → readByte t.dmem (wordAddress s base off + k) =
        some ((readReg s b).extractLsb' (24 - 8 * k) 8)) ∧
      (∀ a, a < wordAddress s base off ∨ wordAddress s base off + 4 ≤ a → readByte t.dmem a = readByte s.dmem a) ∧
      SameRegs s t ∧ Retires s t ∧ t.mulhi = none ∧ SameFlags s t ∧ t.copLog = s.copLog ∧ SameSpecial s t

/-- R65, R72, R63: outside the regions that hold memory `ld` and `st` fault; `ld` of a word with a byte that holds no value
faults (log entry 5); `st` into the program text is refused unless the memories are known to be separate. -/
def Obligations.DataStops : Prop :=
  (MemForms .ld .ldCond .ldShort fun i _ base off => ∀ s, Executes i s →
    (¬ HoldsMemory s (wordAddress s base off) → exec i s = .fault .dataAddressInvalid) ∧
    ∀ k : Nat, k < 4 → HoldsMemory s (wordAddress s base off) →
      readByte s.dmem (wordAddress s base off + k) = none → exec i s = .fault .uninitialisedData) ∧
  MemForms .st .stCond .stShort fun i _ base off => ∀ s, Executes i s →
    (¬ HoldsMemory s (wordAddress s base off) → exec i s = .fault .dataAddressInvalid) ∧
    (HoldsMemory s (wordAddress s base off) → IsProgramText s (wordAddress s base off) →
      s.platform.unified ≠ .separate → exec i s = .refused .storeToCode)

/-- R263: a load from the word just stored to gives the register that was stored, whatever the two offsets do below the
word. -/
def Obligations.LoadAfterStore : Prop :=
  ∀ s t a base c i j, s.pend = none → exec (.st a base i) s = .next t →
    wordAddress s base (i.signExtend 32) = wordAddress s base (j.signExtend 32) →
    ∃ u, exec (.ld c base j) t = .next u ∧ WritesReg t u c (readReg s a)

/-! ### System instructions -/

/-- R271: in super user mode `chrs` selects the write set by bit 1 and the read set by bit 0 of its immediate and changes
nothing else. -/
def Obligations.SelectSets : Prop :=
  ∀ imm : BitVec 2, ∀ i ∈ [Instr.chrs imm, Instr.chrsShort imm], ∀ s, Executes i s → s.psr.um = .super →
    ∃ t, exec i s = .next t ∧ SameRegs s t ∧ SameFlags s t ∧ t.copLog = s.copLog ∧
      RestSame s t { s.psr with
        rswr := if 2 ≤ imm.toNat then .set2 else .set1
        rsrd := if imm.toNat % 2 = 1 then .set2 else .set1 }

/-- R286, R321, R324: outside a slot, `trap` in every mode and `chrs` in user mode enter the exception: EPC holds the address
of the instruction, and nothing is written but what exception entry writes. -/
def Obligations.TrapsAndViolations : Prop :=
  (∀ i ∈ [Instr.trap, Instr.trapShort], RaisesWhere i fun _ => True) ∧
  ∀ imm : BitVec 2, ∀ i ∈ [Instr.chrs imm, Instr.chrsShort imm], RaisesWhere i fun s => s.psr.um = .user

/-- R272, R273, R270: `di` clears IE and `ei` sets it in super user mode, and nothing else changes; in user mode they are
refused. -/
def Obligations.InterruptEnable : Prop :=
  let sets (i : Instr) (ie : Bool) : Prop := ∀ s, Executes i s →
    (s.psr.um = .super → ∃ t, exec i s = .next t ∧ SameRegs s t ∧ SameFlags s t ∧ t.copLog = s.copLog ∧
      RestSame s t { s.psr with ie := ie }) ∧
    (s.psr.um = .user → exec i s = .refused .privilegedInUserMode)
  sets .di false ∧ sets .diShort false ∧ sets .ei true ∧ sets .eiShort true

/-- R276, R277: `scon` writes flags Z, N, C of `c[k]` to bits 3k+2, 3k+1, 3k of its register and zeros above bit 23; `rcon`
takes every flag from those bits of its register and ignores bits 31:24. (The layout is the spec's decision, log
entry 29.) -/
def Obligations.SaveAndRestoreFlags : Prop :=
  let saves (i : Instr) (d : Reg) : Prop := Computes i d fun s v =>
    (∀ k : CReg, v.getLsbD (3 * k.toNat + 2) = (s.creg k).z ∧ v.getLsbD (3 * k.toNat + 1) = (s.creg k).n ∧
      v.getLsbD (3 * k.toNat) = (s.creg k).c) ∧ v.toNat < 2 ^ 24
  let restores (i : Instr) (a : Reg) : Prop := ∀ s, Executes i s → ∃ t, exec i s = .next t ∧
    (∀ k : CReg, t.creg k = ⟨(readReg s a).getLsbD (3 * k.toNat + 2), (readReg s a).getLsbD (3 * k.toNat + 1),
      (readReg s a).getLsbD (3 * k.toNat)⟩) ∧ SameRegs s t ∧ t.copLog = s.copLog ∧ RestSame s t s.psr
  (∀ d, saves (.scon d) d) ∧ (∀ d, saves (.sconShort d) (wide d)) ∧ (∀ a, restores (.rcon a) a) ∧
    ∀ a, restores (.rconShort a) (wide a)

/-- R278: after `scon r`, whatever happens to the flags, `rcon r` restores every flag where register `r` still reads as it
did after the `scon`, if the `scon` wrote the set that is read. -/
def Obligations.SaveThenRestore : Prop :=
  ∀ s t u v r, s.pend = none → s.psr.rsrd = s.psr.rswr → exec (.scon r) s = .next t → readReg u r = readReg t r →
    exec (.rcon r) u = .next v → SameFlags s v

/-- R280: `scall` copies PSR to PSR_2, puts the link address in SR31 whatever the selection is, and transfers to SYS_ADDR
with the super user default after a slot that must be a `nop`, in both privilege modes alike; EPC and the hardware stack
stay. -/
def Obligations.SystemCall : Prop :=
  CallsSystem .scall ∧ (∀ cc k, CallsSystem (.scallCond cc k)) ∧ CallsSystem .scallShort

/-- R281, R282, R270: in super user mode `retu` transfers to SR31 in user mode with set 1 and IE and IL from PSR_2, and
`reti` to the popped pc with the popped PSR, after a slot that must be a `nop`; in user mode both are refused, and `reti`
on an empty hardware stack is. -/
def Obligations.Returns : Prop :=
  (∀ i ∈ [Instr.retu, Instr.retuShort], ∀ s, Executes i s →
    (s.psr.um = .super → ∃ t, exec i s = .next t ∧
      TransfersOnly s t ⟨some (regOf s.set2 31#5), some ⟨.user, s.psr2.ie, s.psr2.il, .set1, .set1⟩, true⟩) ∧
    (s.psr.um = .user → exec i s = .refused .privilegedInUserMode)) ∧
  ∀ i ∈ [Instr.reti, Instr.retiShort], ∀ s, Executes i s →
    (s.psr.um = .super → ∀ e rest, s.hwstack = e :: rest → ∃ t, exec i s = .next t ∧ t.hwstack = rest ∧
      Defers s t ⟨some e.pc, some e.psr, true⟩ ∧ SameRegs s t ∧ SameFlags s t ∧ SameMem s t ∧ t.mulhi = none ∧
      t.copLog = s.copLog ∧ t.psr2 = s.psr2 ∧ t.epc = s.epc ∧ t.intpend = s.intpend ∧ t.imem = s.imem ∧
      t.platform = s.platform ∧ t.env = s.env) ∧
    (s.psr.um = .super → s.hwstack = [] → exec i s = .refused .hwStackUnderflow) ∧
    (s.psr.um = .user → exec i s = .refused .privilegedInUserMode)

/-- R284: `swm` changes the length mode after a slot that must be a `nop`: to 32-bit mode for an immediate with bit 5 set
(32...63), to 16-bit mode for one without (0...31). -/
def Obligations.SwitchMode : Prop :=
  ∀ imm : BitVec 6, ∀ i ∈ [Instr.swm imm, Instr.swmShort imm], TransfersTo i fun s =>
    ⟨none, some { s.psr with il := if 32 ≤ imm.toNat then .il32 else .il16 }, true⟩

/-- R280, R281: a user program that does `scall; nop` is at SYS_ADDR in the super user default, and with `retu; nop` there
it is back after its `nop` with its own PSR; of its registers SR31 alone has changed. -/
def Obligations.SystemCallReturns : Prop :=
  ∀ s, s.psr.um = .user → s.psr.Legal → s.pend = none →
    ∃ a b c d, exec .scall s = .next a ∧ exec .nop a = .next b ∧ b.pc = Config.sysAddr ∧ b.psr = superDefault ∧
      exec .retu b = .next c ∧ exec .nop c = .next d ∧ d.pc = s.pc + lengthNow s + lengthNow s ∧ d.psr = s.psr ∧
      d.pend = none ∧ WritesSr31 s d (s.pc + lengthNow s + lengthNow s) ∧ SameFlags s d ∧ SameMem s d

/-- R332, R333: after an interrupt is entered, `reti; nop` in its handler restores pc, all five PSR fields and the hardware
stack, and the program goes on as it was but for the served request and the latch. -/
def Obligations.InterruptReturns : Prop :=
  ∀ s t src, s.pend = none → enterInterrupt src s = .next t →
    ∃ u v, exec .reti t = .next u ∧ exec .nop u = .next v ∧ v = { s with intpend := t.intpend, mulhi := none }

/-! ### Coprocessors -/

/-- R300 to R305: `cop` sends its word, `movdtc` and `movctc` write a register of the coprocessor, `movdfc` and `movcfc`
read one into a general register; the operation is added to what the coprocessors have been sent, in program order
(R306), and nothing else of the core changes. (What a read returns is free, log entry 17.) -/
def Obligations.CoprocessorTransfers : Prop :=
  (∀ n w, Sends (.cop n w) n fun _ => .exec n w) ∧
  (∀ n r a, Sends (.movdtc n r a) n fun s => .write n r (readReg s a)) ∧
  (∀ cc k n r a, Sends (.movdtcCond cc k n r a) n fun s => .write n r (readReg s a)) ∧
  (∀ n r a, Sends (.movdtcShort n r a) n fun s => .write n r (readReg s (wide a))) ∧
  (∀ n a, Sends (.movctc n a) n fun s => .write n 0#5 (readReg s a)) ∧
  (∀ cc k n a, Sends (.movctcCond cc k n a) n fun s => .write n 0#5 (readReg s a)) ∧
  (∀ n a, Sends (.movctcShort n a) n fun s => .write n 0#5 (readReg s (wide a))) ∧
  (∀ n d r, Receives (.movdfc n d r) n d r) ∧
  (∀ cc k n d r, Receives (.movdfcCond cc k n d r) n d r) ∧
  (∀ n d r, Receives (.movdfcShort n d r) n (wide d) r) ∧
  (∀ n d, Receives (.movcfc n d) n d 0#5) ∧
  (∀ cc k n d, Receives (.movcfcCond cc k n d) n d 0#5) ∧
  ∀ n d, Receives (.movcfcShort n d) n (wide d) 0#5
end

