-- ==== Sys2Proof/Laws/Encoding.lean ====
section
/-! SUPPORT. The bits of fields and of words put together from fields, the bytes of a word and back, and what the three
wrappers of the decoder's formats answer. -/

namespace Sys2Proof

/-- A bit of a field. -/
theorem fieldAt_getLsbD {m : Nat} (w : BitVec m) (lo n i : Nat) :
    (fieldAt w lo n).getLsbD i = (decide (i < n) && w.getLsbD (lo + i)) := by
  simp [fieldAt, BitVec.getLsbD_extractLsb']

/-- A bit of a word put together from fields. -/
theorem toWord_getLsbD {m : Nat} (b : BitVec m) (i : Nat) :
    (toWord b).getLsbD i = (decide (i < 32) && b.getLsbD i) := by
  simp [toWord, BitVec.getLsbD_setWidth]

/-- A bit of a halfword put together from fields. -/
theorem toHalf_getLsbD {m : Nat} (b : BitVec m) (i : Nat) :
    (toHalf b).getLsbD i = (decide (i < 16) && b.getLsbD i) := by
  simp [toHalf, BitVec.getLsbD_setWidth]

/-- A word is its four bytes. -/
theorem toWord_bytes (w : Word) : toWord (fieldAt w 24 8 ++ fieldAt w 16 8 ++ fieldAt w 8 8 ++ fieldAt w 0 8) = w := by
  apply BitVec.eq_of_getLsbD_eq
  intro i hi
  simp only [toWord_getLsbD, fieldAt_getLsbD, BitVec.getLsbD_append]
  grind

/-- A halfword is its two bytes. -/
theorem toHalf_bytes (h : Half) : toHalf (fieldAt h 8 8 ++ fieldAt h 0 8) = h := by
  apply BitVec.eq_of_getLsbD_eq
  intro i hi
  simp only [toHalf_getLsbD, fieldAt_getLsbD, BitVec.getLsbD_append]
  grind

/-- Decoding the bytes of a word. -/
@[simp] theorem decode_bytesOfWord (w : Word) : decode .il32 (bytesOfWord w) = decode32 w := by
  show decode32 (toWord _) = _
  rw [toWord_bytes]

/-- Decoding the bytes of a halfword. -/
@[simp] theorem decode_bytesOfHalf (h : Half) : decode .il16 (bytesOfHalf h) = decode16 h := by
  show decode16 (toHalf _) = _
  rw [toHalf_bytes]

/-- Four bytes are those of one word. -/
theorem bytesOfWord_toWord (a b c d : Byte) : bytesOfWord (toWord (a ++ b ++ c ++ d)) = [a, b, c, d] := by
  have : fieldAt (toWord (a ++ b ++ c ++ d)) 24 8 = a ∧ fieldAt (toWord (a ++ b ++ c ++ d)) 16 8 = b ∧
      fieldAt (toWord (a ++ b ++ c ++ d)) 8 8 = c ∧ fieldAt (toWord (a ++ b ++ c ++ d)) 0 8 = d := by
    refine ⟨?_, ?_, ?_, ?_⟩ <;> apply BitVec.eq_of_getLsbD_eq <;> intro i hi <;>
      simp only [toWord_getLsbD, fieldAt_getLsbD, BitVec.getLsbD_append] <;> grind
  simp [bytesOfWord, this.1, this.2.1, this.2.2.1, this.2.2.2]

/-- Two bytes are those of one halfword. -/
theorem bytesOfHalf_toHalf (a b : Byte) : bytesOfHalf (toHalf (a ++ b)) = [a, b] := by
  have : fieldAt (toHalf (a ++ b)) 8 8 = a ∧ fieldAt (toHalf (a ++ b)) 0 8 = b := by
    refine ⟨?_, ?_⟩ <;> apply BitVec.eq_of_getLsbD_eq <;> intro i hi <;>
      simp only [toHalf_getLsbD, fieldAt_getLsbD, BitVec.getLsbD_append] <;> grind
  simp [bytesOfHalf, this.1, this.2]

/-- What is decoded is a word of the mode. -/
theorem decode_ok {il : ILen} {bytes : List Byte} {i : Instr} (h : decode il bytes = .ok i) :
    (il = .il32 ∧ ∃ w, bytes = bytesOfWord w ∧ decode32 w = .ok i) ∨
      (il = .il16 ∧ ∃ w, bytes = bytesOfHalf w ∧ decode16 w = .ok i) := by
  unfold decode at h
  split at h
  · exact .inl ⟨rfl, _, (bytesOfWord_toWord _ _ _ _).symm, h⟩
  · exact .inr ⟨rfl, _, (bytesOfHalf_toHalf _ _).symm, h⟩
  · cases h

/-- Must-be-zero bits that are accepted are zero. -/
theorem ifZero_ok {n : Nat} {b : BitVec n} {i j : Instr} (h : ifZero b i = .ok j) : b = 0#n ∧ j = i := by
  unfold ifZero at h
  split at h
  · exact ⟨‹_›, by cases h; rfl⟩
  · cases h

/-- The two variants of an accepted word. -/
theorem byForm_ok {w : Word} {p : Decoded} {c : Cond → CReg → Decoded} {i : Instr} (h : byForm w p c = .ok i) :
    (fieldAt w 25 1 = 0#1 ∧ p = .ok i) ∨
      (fieldAt w 25 1 ≠ 0#1 ∧ ∃ cc, condOf (fieldAt w 22 3) = some cc ∧ c cc (fieldAt w 19 3) = .ok i) := by
  unfold byForm at h
  split at h
  · exact .inl ⟨‹_›, h⟩
  · split at h
    · exact .inr ⟨‹_›, _, ‹_›, h⟩
    · cases h

/-- An accepted word of a format with no conditional variant. -/
theorem unconditional_ok {w : Word} {d : Decoded} {i : Instr} (h : unconditional w d = .ok i) :
    fieldAt w 25 1 = 0#1 ∧ d = .ok i := by
  unfold unconditional at h
  split at h
  · exact ⟨‹_›, h⟩
  · cases h

/-- A condition and its number. -/
@[simp] theorem condOf_condBits (cc : Cond) : condOf (condBits cc) = some cc := by
  cases cc <;> rfl

/-- A number and its condition. -/
theorem condBits_of_condOf {b : BitVec 3} {cc : Cond} (h : condOf b = some cc) : condBits cc = b := by
  revert h
  revert b
  cases cc <;> decide

end Sys2Proof
end

