-- ==== Sys2Proof/Laws/Memory.lean ====
section
/-! SUPPORT. What the memory operations do: a read after a write, the bytes a write leaves alone, and the canonical form,
which every operation keeps. -/

namespace Sys2Proof.Machine

/-- A byte read back, and every other byte as it was; of any list, canonical or not. -/
@[simp] theorem readByte_writeByte (m : Memory) (a b : Nat) (v : Byte) :
    readByte (writeByte m a v) b = if b = a then some v else readByte m b := by
  induction m with
  | nil => simp [writeByte, readByte]
  | cons x m ih =>
    obtain ⟨c, w⟩ := x
    by_cases h1 : a < c
    · simp [writeByte, readByte, h1]
    · by_cases h2 : a = c
      · subst h2
        simp only [writeByte, lt_irrefl, if_false, if_true, readByte]
        split <;> rfl
      · simp only [writeByte, h1, h2, if_false, readByte, ih]
        by_cases h3 : b = c
        · simp [h3, Ne.symm h2]
        · simp [h3]

/-- What an element of a written memory is. -/
theorem mem_writeByte {m : Memory} {a : Nat} {v : Byte} {x : Host.Cell} (h : x ∈ writeByte m a v) :
    x = (a, v) ∨ x ∈ m := by
  induction m with
  | nil => simpa [writeByte] using h
  | cons y m ih =>
    obtain ⟨c, w⟩ := y
    simp only [writeByte] at h
    split at h
    · simpa using h
    · split at h
      · simp only [List.mem_cons] at h
        exact h.imp_right fun h => List.mem_cons_of_mem _ h
      · simp only [List.mem_cons] at h
        rcases h with h | h
        · exact .inr (h ▸ List.mem_cons_self)
        · exact (ih h).imp_right (List.mem_cons_of_mem _)

/-- A byte written within the address space keeps the canonical form. -/
theorem writeByte_wf {m : Memory} {a : Nat} {v : Byte} (hm : Memory.wf m) (ha : a < 2 ^ 32) :
    Memory.wf (writeByte m a v) := by
  refine ⟨?_, fun x hx => ?_⟩
  · have hp := hm.1
    clear hm ha
    induction m with
    | nil => simp [writeByte]
    | cons y m ih =>
      obtain ⟨c, w⟩ := y
      rw [List.pairwise_cons] at hp
      simp only [writeByte]
      split
      · rename_i h
        refine List.pairwise_cons.2 ⟨fun x hx => ?_, List.pairwise_cons.2 hp⟩
        rcases List.mem_cons.1 hx with rfl | hx
        · exact h
        · exact h.trans (hp.1 x hx)
      · split
        · rename_i h
          exact List.pairwise_cons.2 ⟨h ▸ hp.1, hp.2⟩
        · refine List.pairwise_cons.2 ⟨fun x hx => ?_, ih hp.2⟩
          rcases mem_writeByte hx with rfl | hx
          · show c < a
            omega
          · exact hp.1 x hx
  · rcases mem_writeByte hx with rfl | hx
    · exact ha
    · exact hm.2 x hx

/-- Bytes written within the address space keep the canonical form. -/
theorem writeBytes_wf {m : Memory} {a : Nat} {vs : List Byte} (hm : Memory.wf m) (ha : a + vs.length ≤ 2 ^ 32) :
    Memory.wf (writeBytes m a vs) := by
  induction vs generalizing m a with
  | nil => exact hm
  | cons v vs ih =>
    simp only [List.length_cons] at ha
    exact ih (writeByte_wf hm (by omega)) (by omega)

/-- A byte after a write of several: the one written there, or the one that was there. -/
theorem readByte_writeBytes (m : Memory) (a b : Nat) (vs : List Byte) :
    readByte (writeBytes m a vs) b = if a ≤ b ∧ b < a + vs.length then vs[b - a]? else readByte m b := by
  induction vs generalizing m a with
  | nil => simp [writeBytes]
  | cons v vs ih =>
    simp only [writeBytes, ih, readByte_writeByte, List.length_cons]
    by_cases h : b = a
    · subst h
      simp
    · by_cases h2 : a ≤ b ∧ b < a + (vs.length + 1)
      · have h3 : a + 1 ≤ b ∧ b < a + 1 + vs.length := by omega
        rw [if_pos h3, if_pos h2, show b - a = (b - (a + 1)) + 1 by omega, List.getElem?_cons_succ]
      · have h3 : ¬ (a + 1 ≤ b ∧ b < a + 1 + vs.length) := by omega
        rw [if_neg h3, if_neg h2, if_neg h]

/-- Several bytes that read the same read the same together. -/
theorem readBytes_congr {m m' : Memory} {a n : Nat} (h : ∀ b, a ≤ b → b < a + n → readByte m' b = readByte m b) :
    readBytes m' a n = readBytes m a n := by
  induction n generalizing a with
  | zero => rfl
  | succ n ih =>
    simp only [readBytes]
    rw [h a (by omega) (by omega), ih fun b h1 h2 => h b (by omega) (by omega)]

/-- The bytes written are the bytes read. -/
theorem readBytes_writeBytes (m : Memory) (a : Nat) (vs : List Byte) :
    readBytes (writeBytes m a vs) a vs.length = some vs := by
  induction vs generalizing m a with
  | nil => rfl
  | cons v vs ih =>
    have h : readByte (writeBytes m a (v :: vs)) a = some v := by
      rw [readByte_writeBytes]; simp
    simp only [List.length_cons, readBytes, h]
    simp only [writeBytes, ih]

/-- The effective address is aligned to the word (R62). -/
theorem effAddr_toNat (base off : Word) : (effAddr base off).toNat = (base + off).toNat / 4 * 4 := by
  have h2 : ∀ x : Word, x &&& 0xFFFFFFFC#32 = (x >>> 2) <<< 2 := by
    intro x
    apply BitVec.eq_of_getLsbD_eq
    intro i hi
    interval_cases i <;> simp
  rw [effAddr, h2, BitVec.toNat_shiftLeft, BitVec.toNat_ushiftRight, Nat.shiftLeft_eq, Nat.shiftRight_eq_div_pow]
  have := (base + off).isLt
  omega

/-- An aligned word lies within the address space. -/
theorem effAddr_bound (base off : Word) : (effAddr base off).toNat + 4 ≤ 2 ^ 32 := by
  rw [effAddr_toNat]
  have := (base + off).isLt
  omega

@[simp] theorem bytesOfWord_length (v : Word) : (bytesOfWord v).length = 4 := rfl

/-- A word stored by `st` keeps the canonical form. -/
theorem memWrite_wf {m : Memory} {base off v : Word} (hm : Memory.wf m) :
    Memory.wf (memWrite m (effAddr base off) v) :=
  writeBytes_wf hm (by simpa using effAddr_bound base off)

/-- `memRead` by its four bytes, the most significant first. -/
theorem memRead_eq (m : Memory) (a : Word) {b3 b2 b1 b0 : Byte} (h3 : readByte m a.toNat = some b3)
    (h2 : readByte m (a.toNat + 1) = some b2) (h1 : readByte m (a.toNat + 2) = some b1)
    (h0 : readByte m (a.toNat + 3) = some b0) : memRead m a = some (b3 ++ b2 ++ b1 ++ b0) := by
  simp [memRead, readBytes, h3, h2, h1, h0, wordOfBytes, toWord]

/-- The four bytes of a word make the word. -/
@[simp] theorem wordOfBytes_bytesOfWord (v : Word) : wordOfBytes (bytesOfWord v) = some v := by
  simp only [bytesOfWord, wordOfBytes, toWord, fieldAt, Option.some.injEq]
  apply BitVec.eq_of_getLsbD_eq
  intro i hi
  simp only [BitVec.getLsbD_setWidth, BitVec.getLsbD_append, BitVec.getLsbD_extractLsb']
  grind

/-- A word read back from where it was stored. -/
@[simp] theorem memRead_memWrite (m : Memory) (a v : Word) : memRead (memWrite m a v) a = some v := by
  rw [memRead, memWrite, show (4 : Nat) = (bytesOfWord v).length from rfl, readBytes_writeBytes]
  simp

/-- A word that a store does not touch. -/
theorem memRead_memWrite_ne (m : Memory) (a b v : Word) (h : b.toNat + 4 ≤ a.toNat ∨ a.toNat + 4 ≤ b.toNat) :
    memRead (memWrite m a v) b = memRead m b := by
  rw [memRead, memRead, readBytes_congr]
  intro c h1 h2
  rw [memWrite, readByte_writeBytes, if_neg]
  simp only [bytesOfWord_length]
  omega

/-- The memories of the state after reset are in canonical form. -/
theorem reset_memory_wf : Memory.wf State.reset.dmem ∧ Memory.wf State.reset.imem := by
  simp [State.reset, Memory.wf]

end Sys2Proof.Machine
end

