-- ==== Sys2Proof/Laws/State.lean ====
section
/-! SUPPORT. The small lemmas of State and of its updates: one per field per update, so that no later proof unfolds a
record update; and what reading a register gives after a write. -/

namespace Sys2Proof.Machine

/-! ### `setCreg` -/

@[simp] theorem State.setCreg_set1 (s : State) (k : CReg) (f : Flags) : (s.setCreg k f).set1 = s.set1 := rfl
@[simp] theorem State.setCreg_set2 (s : State) (k : CReg) (f : Flags) : (s.setCreg k f).set2 = s.set2 := rfl
@[simp] theorem State.setCreg_pc (s : State) (k : CReg) (f : Flags) : (s.setCreg k f).pc = s.pc := rfl
@[simp] theorem State.setCreg_pend (s : State) (k : CReg) (f : Flags) : (s.setCreg k f).pend = s.pend := rfl
@[simp] theorem State.setCreg_cregs (s : State) (k : CReg) (f : Flags) :
    (s.setCreg k f).cregs = s.cregs.set k.toNat f k.isLt := rfl
@[simp] theorem State.setCreg_psr (s : State) (k : CReg) (f : Flags) : (s.setCreg k f).psr = s.psr := rfl
@[simp] theorem State.setCreg_psr2 (s : State) (k : CReg) (f : Flags) : (s.setCreg k f).psr2 = s.psr2 := rfl
@[simp] theorem State.setCreg_epc (s : State) (k : CReg) (f : Flags) : (s.setCreg k f).epc = s.epc := rfl
@[simp] theorem State.setCreg_hwstack (s : State) (k : CReg) (f : Flags) : (s.setCreg k f).hwstack = s.hwstack := rfl
@[simp] theorem State.setCreg_mulhi (s : State) (k : CReg) (f : Flags) : (s.setCreg k f).mulhi = s.mulhi := rfl
@[simp] theorem State.setCreg_intpend (s : State) (k : CReg) (f : Flags) : (s.setCreg k f).intpend = s.intpend := rfl
@[simp] theorem State.setCreg_dmem (s : State) (k : CReg) (f : Flags) : (s.setCreg k f).dmem = s.dmem := rfl
@[simp] theorem State.setCreg_imem (s : State) (k : CReg) (f : Flags) : (s.setCreg k f).imem = s.imem := rfl
@[simp] theorem State.setCreg_copLog (s : State) (k : CReg) (f : Flags) : (s.setCreg k f).copLog = s.copLog := rfl
@[simp] theorem State.setCreg_platform (s : State) (k : CReg) (f : Flags) :
    (s.setCreg k f).platform = s.platform := rfl
@[simp] theorem State.setCreg_env (s : State) (k : CReg) (f : Flags) : (s.setCreg k f).env = s.env := rfl

/-! ### `setSr31` -/

@[simp] theorem State.setSr31_set1 (s : State) (v : Word) : (s.setSr31 v).set1 = s.set1 := rfl
@[simp] theorem State.setSr31_set2 (s : State) (v : Word) : (s.setSr31 v).set2 = withReg s.set2 linkReg v := rfl
@[simp] theorem State.setSr31_pc (s : State) (v : Word) : (s.setSr31 v).pc = s.pc := rfl
@[simp] theorem State.setSr31_pend (s : State) (v : Word) : (s.setSr31 v).pend = s.pend := rfl
@[simp] theorem State.setSr31_cregs (s : State) (v : Word) : (s.setSr31 v).cregs = s.cregs := rfl
@[simp] theorem State.setSr31_psr (s : State) (v : Word) : (s.setSr31 v).psr = s.psr := rfl
@[simp] theorem State.setSr31_psr2 (s : State) (v : Word) : (s.setSr31 v).psr2 = s.psr2 := rfl
@[simp] theorem State.setSr31_epc (s : State) (v : Word) : (s.setSr31 v).epc = s.epc := rfl
@[simp] theorem State.setSr31_hwstack (s : State) (v : Word) : (s.setSr31 v).hwstack = s.hwstack := rfl
@[simp] theorem State.setSr31_mulhi (s : State) (v : Word) : (s.setSr31 v).mulhi = s.mulhi := rfl
@[simp] theorem State.setSr31_intpend (s : State) (v : Word) : (s.setSr31 v).intpend = s.intpend := rfl
@[simp] theorem State.setSr31_dmem (s : State) (v : Word) : (s.setSr31 v).dmem = s.dmem := rfl
@[simp] theorem State.setSr31_imem (s : State) (v : Word) : (s.setSr31 v).imem = s.imem := rfl
@[simp] theorem State.setSr31_copLog (s : State) (v : Word) : (s.setSr31 v).copLog = s.copLog := rfl
@[simp] theorem State.setSr31_platform (s : State) (v : Word) : (s.setSr31 v).platform = s.platform := rfl
@[simp] theorem State.setSr31_env (s : State) (v : Word) : (s.setSr31 v).env = s.env := rfl

/-! ### `transfer` -/

@[simp] theorem State.transfer_set1 (s : State) (a : Option Word) (p : Option PSR) (n : Bool) :
    (s.transfer a p n).set1 = s.set1 := rfl
@[simp] theorem State.transfer_set2 (s : State) (a : Option Word) (p : Option PSR) (n : Bool) :
    (s.transfer a p n).set2 = s.set2 := rfl
@[simp] theorem State.transfer_pc (s : State) (a : Option Word) (p : Option PSR) (n : Bool) :
    (s.transfer a p n).pc = s.pc := rfl
@[simp] theorem State.transfer_pend (s : State) (a : Option Word) (p : Option PSR) (n : Bool) :
    (s.transfer a p n).pend = some ⟨a, p, n⟩ := rfl
@[simp] theorem State.transfer_cregs (s : State) (a : Option Word) (p : Option PSR) (n : Bool) :
    (s.transfer a p n).cregs = s.cregs := rfl
@[simp] theorem State.transfer_psr (s : State) (a : Option Word) (p : Option PSR) (n : Bool) :
    (s.transfer a p n).psr = s.psr := rfl
@[simp] theorem State.transfer_psr2 (s : State) (a : Option Word) (p : Option PSR) (n : Bool) :
    (s.transfer a p n).psr2 = s.psr2 := rfl
@[simp] theorem State.transfer_epc (s : State) (a : Option Word) (p : Option PSR) (n : Bool) :
    (s.transfer a p n).epc = s.epc := rfl
@[simp] theorem State.transfer_hwstack (s : State) (a : Option Word) (p : Option PSR) (n : Bool) :
    (s.transfer a p n).hwstack = s.hwstack := rfl
@[simp] theorem State.transfer_mulhi (s : State) (a : Option Word) (p : Option PSR) (n : Bool) :
    (s.transfer a p n).mulhi = s.mulhi := rfl
@[simp] theorem State.transfer_intpend (s : State) (a : Option Word) (p : Option PSR) (n : Bool) :
    (s.transfer a p n).intpend = s.intpend := rfl
@[simp] theorem State.transfer_dmem (s : State) (a : Option Word) (p : Option PSR) (n : Bool) :
    (s.transfer a p n).dmem = s.dmem := rfl
@[simp] theorem State.transfer_imem (s : State) (a : Option Word) (p : Option PSR) (n : Bool) :
    (s.transfer a p n).imem = s.imem := rfl
@[simp] theorem State.transfer_copLog (s : State) (a : Option Word) (p : Option PSR) (n : Bool) :
    (s.transfer a p n).copLog = s.copLog := rfl
@[simp] theorem State.transfer_platform (s : State) (a : Option Word) (p : Option PSR) (n : Bool) :
    (s.transfer a p n).platform = s.platform := rfl
@[simp] theorem State.transfer_env (s : State) (a : Option Word) (p : Option PSR) (n : Bool) :
    (s.transfer a p n).env = s.env := rfl

/-! ### `issue` -/

@[simp] theorem State.issue_set1 (s : State) (op : CopOp) : (s.issue op).set1 = s.set1 := rfl
@[simp] theorem State.issue_set2 (s : State) (op : CopOp) : (s.issue op).set2 = s.set2 := rfl
@[simp] theorem State.issue_pc (s : State) (op : CopOp) : (s.issue op).pc = s.pc := rfl
@[simp] theorem State.issue_pend (s : State) (op : CopOp) : (s.issue op).pend = s.pend := rfl
@[simp] theorem State.issue_cregs (s : State) (op : CopOp) : (s.issue op).cregs = s.cregs := rfl
@[simp] theorem State.issue_psr (s : State) (op : CopOp) : (s.issue op).psr = s.psr := rfl
@[simp] theorem State.issue_psr2 (s : State) (op : CopOp) : (s.issue op).psr2 = s.psr2 := rfl
@[simp] theorem State.issue_epc (s : State) (op : CopOp) : (s.issue op).epc = s.epc := rfl
@[simp] theorem State.issue_hwstack (s : State) (op : CopOp) : (s.issue op).hwstack = s.hwstack := rfl
@[simp] theorem State.issue_mulhi (s : State) (op : CopOp) : (s.issue op).mulhi = s.mulhi := rfl
@[simp] theorem State.issue_intpend (s : State) (op : CopOp) : (s.issue op).intpend = s.intpend := rfl
@[simp] theorem State.issue_dmem (s : State) (op : CopOp) : (s.issue op).dmem = s.dmem := rfl
@[simp] theorem State.issue_imem (s : State) (op : CopOp) : (s.issue op).imem = s.imem := rfl
@[simp] theorem State.issue_copLog (s : State) (op : CopOp) : (s.issue op).copLog = s.copLog ++ [op] := rfl
@[simp] theorem State.issue_platform (s : State) (op : CopOp) : (s.issue op).platform = s.platform := rfl
@[simp] theorem State.issue_env (s : State) (op : CopOp) : (s.issue op).env = s.env := rfl

/-! ### `opened` -/

@[simp] theorem State.opened_set1 (s : State) : (s.opened).set1 = s.set1 := rfl
@[simp] theorem State.opened_set2 (s : State) : (s.opened).set2 = s.set2 := rfl
@[simp] theorem State.opened_pc (s : State) : (s.opened).pc = s.pc := rfl
@[simp] theorem State.opened_pend (s : State) : (s.opened).pend = none := rfl
@[simp] theorem State.opened_cregs (s : State) : (s.opened).cregs = s.cregs := rfl
@[simp] theorem State.opened_psr (s : State) : (s.opened).psr = s.psr := rfl
@[simp] theorem State.opened_psr2 (s : State) : (s.opened).psr2 = s.psr2 := rfl
@[simp] theorem State.opened_epc (s : State) : (s.opened).epc = s.epc := rfl
@[simp] theorem State.opened_hwstack (s : State) : (s.opened).hwstack = s.hwstack := rfl
@[simp] theorem State.opened_mulhi (s : State) : (s.opened).mulhi = none := rfl
@[simp] theorem State.opened_intpend (s : State) : (s.opened).intpend = s.intpend := rfl
@[simp] theorem State.opened_dmem (s : State) : (s.opened).dmem = s.dmem := rfl
@[simp] theorem State.opened_imem (s : State) : (s.opened).imem = s.imem := rfl
@[simp] theorem State.opened_copLog (s : State) : (s.opened).copLog = s.copLog := rfl
@[simp] theorem State.opened_platform (s : State) : (s.opened).platform = s.platform := rfl
@[simp] theorem State.opened_env (s : State) : (s.opened).env = s.env := rfl

/-! ### `absorb` -/

@[simp] theorem State.absorb_set1 (s : State) : (s.absorb).set1 = s.set1 := rfl
@[simp] theorem State.absorb_set2 (s : State) : (s.absorb).set2 = s.set2 := rfl
@[simp] theorem State.absorb_pc (s : State) : (s.absorb).pc = s.pc := rfl
@[simp] theorem State.absorb_pend (s : State) : (s.absorb).pend = s.pend := rfl
@[simp] theorem State.absorb_cregs (s : State) : (s.absorb).cregs = s.cregs := rfl
@[simp] theorem State.absorb_psr (s : State) : (s.absorb).psr = s.psr := rfl
@[simp] theorem State.absorb_psr2 (s : State) : (s.absorb).psr2 = s.psr2 := rfl
@[simp] theorem State.absorb_epc (s : State) : (s.absorb).epc = s.epc := rfl
@[simp] theorem State.absorb_hwstack (s : State) : (s.absorb).hwstack = s.hwstack := rfl
@[simp] theorem State.absorb_mulhi (s : State) : (s.absorb).mulhi = s.mulhi := rfl
@[simp] theorem State.absorb_intpend (s : State) :
    (s.absorb).intpend = s.boundary.requests.foldl (fun ms n => addSource n ms) s.intpend := rfl
@[simp] theorem State.absorb_dmem (s : State) : (s.absorb).dmem = s.dmem := rfl
@[simp] theorem State.absorb_imem (s : State) : (s.absorb).imem = s.imem := rfl
@[simp] theorem State.absorb_copLog (s : State) : (s.absorb).copLog = s.copLog := rfl
@[simp] theorem State.absorb_platform (s : State) : (s.absorb).platform = s.platform := rfl
@[simp] theorem State.absorb_env (s : State) : (s.absorb).env = s.env.tail := rfl

/-! ### `setReg` -/

@[simp] theorem State.setReg_pc (s : State) (d : Reg) (v : Word) :
    (s.setReg d v).pc = s.pc := by unfold State.setReg; split <;> rfl
@[simp] theorem State.setReg_pend (s : State) (d : Reg) (v : Word) :
    (s.setReg d v).pend = s.pend := by unfold State.setReg; split <;> rfl
@[simp] theorem State.setReg_cregs (s : State) (d : Reg) (v : Word) :
    (s.setReg d v).cregs = s.cregs := by unfold State.setReg; split <;> rfl
@[simp] theorem State.setReg_psr (s : State) (d : Reg) (v : Word) :
    (s.setReg d v).psr = s.psr := by unfold State.setReg; split <;> rfl
@[simp] theorem State.setReg_psr2 (s : State) (d : Reg) (v : Word) :
    (s.setReg d v).psr2 = s.psr2 := by unfold State.setReg; split <;> rfl
@[simp] theorem State.setReg_epc (s : State) (d : Reg) (v : Word) :
    (s.setReg d v).epc = s.epc := by unfold State.setReg; split <;> rfl
@[simp] theorem State.setReg_hwstack (s : State) (d : Reg) (v : Word) :
    (s.setReg d v).hwstack = s.hwstack := by unfold State.setReg; split <;> rfl
@[simp] theorem State.setReg_mulhi (s : State) (d : Reg) (v : Word) :
    (s.setReg d v).mulhi = s.mulhi := by unfold State.setReg; split <;> rfl
@[simp] theorem State.setReg_intpend (s : State) (d : Reg) (v : Word) :
    (s.setReg d v).intpend = s.intpend := by unfold State.setReg; split <;> rfl
@[simp] theorem State.setReg_dmem (s : State) (d : Reg) (v : Word) :
    (s.setReg d v).dmem = s.dmem := by unfold State.setReg; split <;> rfl
@[simp] theorem State.setReg_imem (s : State) (d : Reg) (v : Word) :
    (s.setReg d v).imem = s.imem := by unfold State.setReg; split <;> rfl
@[simp] theorem State.setReg_copLog (s : State) (d : Reg) (v : Word) :
    (s.setReg d v).copLog = s.copLog := by unfold State.setReg; split <;> rfl
@[simp] theorem State.setReg_platform (s : State) (d : Reg) (v : Word) :
    (s.setReg d v).platform = s.platform := by unfold State.setReg; split <;> rfl
@[simp] theorem State.setReg_env (s : State) (d : Reg) (v : Word) :
    (s.setReg d v).env = s.env := by unfold State.setReg; split <;> rfl

/-! ### `enterException` -/

@[simp] theorem enterException_set1 (e : Exc) (s : State) : (enterException e s).set1 = s.set1 := rfl
@[simp] theorem enterException_set2 (e : Exc) (s : State) : (enterException e s).set2 = s.set2 := rfl
@[simp] theorem enterException_pc (e : Exc) (s : State) : (enterException e s).pc = Config.excepAddr := rfl
@[simp] theorem enterException_pend (e : Exc) (s : State) : (enterException e s).pend = none := rfl
@[simp] theorem enterException_cregs (e : Exc) (s : State) : (enterException e s).cregs = s.cregs := rfl
@[simp] theorem enterException_psr (e : Exc) (s : State) : (enterException e s).psr = .superEntry := rfl
@[simp] theorem enterException_psr2 (e : Exc) (s : State) : (enterException e s).psr2 = s.psr2 := rfl
@[simp] theorem enterException_epc (e : Exc) (s : State) : (enterException e s).epc = s.pc := rfl
@[simp] theorem enterException_hwstack (e : Exc) (s : State) : (enterException e s).hwstack = s.hwstack := rfl
@[simp] theorem enterException_mulhi (e : Exc) (s : State) : (enterException e s).mulhi = none := rfl
@[simp] theorem enterException_intpend (e : Exc) (s : State) : (enterException e s).intpend = s.intpend := rfl
@[simp] theorem enterException_dmem (e : Exc) (s : State) : (enterException e s).dmem = s.dmem := rfl
@[simp] theorem enterException_imem (e : Exc) (s : State) : (enterException e s).imem = s.imem := rfl
@[simp] theorem enterException_copLog (e : Exc) (s : State) : (enterException e s).copLog = s.copLog := rfl
@[simp] theorem enterException_platform (e : Exc) (s : State) : (enterException e s).platform = s.platform := rfl
@[simp] theorem enterException_env (e : Exc) (s : State) : (enterException e s).env = s.env := rfl

/-! ### `commit` and `State.close` -/

@[simp] theorem commit_set1 (o : Option Transfer) (n : Word) (s : State) : (commit o n s).set1 = s.set1 := by
  cases o <;> rfl
@[simp] theorem State.close_set1 (s t : State) : (s.close t).set1 = t.set1 := commit_set1 _ _ _
@[simp] theorem commit_set2 (o : Option Transfer) (n : Word) (s : State) : (commit o n s).set2 = s.set2 := by
  cases o <;> rfl
@[simp] theorem State.close_set2 (s t : State) : (s.close t).set2 = t.set2 := commit_set2 _ _ _
@[simp] theorem commit_pend (o : Option Transfer) (n : Word) (s : State) : (commit o n s).pend = s.pend := by
  cases o <;> rfl
@[simp] theorem State.close_pend (s t : State) : (s.close t).pend = t.pend := commit_pend _ _ _
@[simp] theorem commit_cregs (o : Option Transfer) (n : Word) (s : State) : (commit o n s).cregs = s.cregs := by
  cases o <;> rfl
@[simp] theorem State.close_cregs (s t : State) : (s.close t).cregs = t.cregs := commit_cregs _ _ _
@[simp] theorem commit_psr2 (o : Option Transfer) (n : Word) (s : State) : (commit o n s).psr2 = s.psr2 := by
  cases o <;> rfl
@[simp] theorem State.close_psr2 (s t : State) : (s.close t).psr2 = t.psr2 := commit_psr2 _ _ _
@[simp] theorem commit_epc (o : Option Transfer) (n : Word) (s : State) : (commit o n s).epc = s.epc := by
  cases o <;> rfl
@[simp] theorem State.close_epc (s t : State) : (s.close t).epc = t.epc := commit_epc _ _ _
@[simp] theorem commit_hwstack (o : Option Transfer) (n : Word) (s : State) : (commit o n s).hwstack = s.hwstack := by
  cases o <;> rfl
@[simp] theorem State.close_hwstack (s t : State) : (s.close t).hwstack = t.hwstack := commit_hwstack _ _ _
@[simp] theorem commit_mulhi (o : Option Transfer) (n : Word) (s : State) : (commit o n s).mulhi = s.mulhi := by
  cases o <;> rfl
@[simp] theorem State.close_mulhi (s t : State) : (s.close t).mulhi = t.mulhi := commit_mulhi _ _ _
@[simp] theorem commit_intpend (o : Option Transfer) (n : Word) (s : State) : (commit o n s).intpend = s.intpend := by
  cases o <;> rfl
@[simp] theorem State.close_intpend (s t : State) : (s.close t).intpend = t.intpend := commit_intpend _ _ _
@[simp] theorem commit_dmem (o : Option Transfer) (n : Word) (s : State) : (commit o n s).dmem = s.dmem := by
  cases o <;> rfl
@[simp] theorem State.close_dmem (s t : State) : (s.close t).dmem = t.dmem := commit_dmem _ _ _
@[simp] theorem commit_imem (o : Option Transfer) (n : Word) (s : State) : (commit o n s).imem = s.imem := by
  cases o <;> rfl
@[simp] theorem State.close_imem (s t : State) : (s.close t).imem = t.imem := commit_imem _ _ _
@[simp] theorem commit_copLog (o : Option Transfer) (n : Word) (s : State) : (commit o n s).copLog = s.copLog := by
  cases o <;> rfl
@[simp] theorem State.close_copLog (s t : State) : (s.close t).copLog = t.copLog := commit_copLog _ _ _
@[simp] theorem commit_platform (o : Option Transfer) (n : Word) (s : State) : (commit o n s).platform = s.platform := by
  cases o <;> rfl
@[simp] theorem State.close_platform (s t : State) : (s.close t).platform = t.platform := commit_platform _ _ _
@[simp] theorem commit_env (o : Option Transfer) (n : Word) (s : State) : (commit o n s).env = s.env := by
  cases o <;> rfl
@[simp] theorem State.close_env (s t : State) : (s.close t).env = t.env := commit_env _ _ _

/-! ### Registers and flags -/

@[simp] theorem regOf_withReg (f : Vector Word 32) (d r : Reg) (v : Word) :
    regOf (withReg f d v) r = if r = d then v else regOf f r := by
  simp only [regOf, withReg, Vector.getElem_set]
  by_cases h : r = d
  · simp [h]
  · rw [if_neg h, if_neg (fun e => h (BitVec.eq_of_toNat_eq e.symm))]

/-- A write of a register, seen from set 1. -/
@[simp] theorem State.setReg_set1 (s : State) (d r : Reg) (v : Word) :
    regOf (s.setReg d v).set1 r = if s.psr.rswr = .set1 ∧ r = d then v else regOf s.set1 r := by
  unfold State.setReg
  split <;> rename_i h <;> simp [h]

/-- A write of a register, seen from set 2. -/
@[simp] theorem State.setReg_set2 (s : State) (d r : Reg) (v : Word) :
    regOf (s.setReg d v).set2 r = if s.psr.rswr = .set2 ∧ r = d then v else regOf s.set2 r := by
  unfold State.setReg
  split <;> rename_i h <;> simp [h]

/-- A read of a register depends on the two sets and the selection alone. -/
theorem State.reg_eq (s : State) (r : Reg) :
    s.reg r = if s.psr.rsrd = .set1 then regOf s.set1 r else regOf s.set2 r := by
  unfold State.reg
  split <;> rename_i h <;> simp [h]

@[simp] theorem State.opened_reg (s : State) (r : Reg) : s.opened.reg r = s.reg r := rfl
@[simp] theorem State.opened_creg (s : State) (k : CReg) : s.opened.creg k = s.creg k := rfl
@[simp] theorem State.opened_len (s : State) : s.opened.len = s.len := rfl
@[simp] theorem State.opened_link (s : State) : s.opened.link = s.link := rfl
@[simp] theorem State.absorb_reg (s : State) (r : Reg) : s.absorb.reg r = s.reg r := rfl
@[simp] theorem State.absorb_creg (s : State) (k : CReg) : s.absorb.creg k = s.creg k := rfl
@[simp] theorem State.absorb_len (s : State) : s.absorb.len = s.len := rfl
@[simp] theorem State.absorb_attached (s : State) (n : CopNum) : s.absorb.attached n = s.attached n := rfl

/-- A condition register after a write of one. -/
@[simp] theorem State.setCreg_creg (s : State) (j k : CReg) (f : Flags) :
    (s.setCreg j f).creg k = if k = j then f else s.creg k := by
  simp only [State.creg, State.setCreg, Vector.getElem_set]
  by_cases h : k = j
  · simp [h]
  · rw [if_neg h, if_neg (fun e => h (BitVec.eq_of_toNat_eq e.symm))]

@[simp] theorem State.setReg_creg (s : State) (d : Reg) (v : Word) (k : CReg) :
    (s.setReg d v).creg k = s.creg k := by
  simp [State.creg]

@[simp] theorem State.close_creg (s t : State) (k : CReg) : (s.close t).creg k = t.creg k := by
  simp [State.creg]

end Sys2Proof.Machine
end

