-- ==== Sys2Proof/Laws/Step.lean ====
section
/-! SUPPORT. What the shared operations can do, said once each: `runInstr`, `ifCond`, and, from them, one inversion of `exec`
over all instructions (`exec_next`) with the rule of each reduced to what it does to the state (`Did`); and what `step`
can do (`step_next`). -/

namespace Sys2Proof.Machine

/-! ### `runInstr` and `ifCond` -/

/-- All that one instruction can do when it answers a next state. -/
theorem runInstr_next {role : SlotRole} {body : State → Effect} {s t : State}
    (h : runInstr role body s = .next t) :
    slotCheck role s.pend = none ∧
      ((∃ u, body s.opened = .done u ∧ t = s.close u) ∨
        ∃ e, body s.opened = .raise e ∧ s.pend = none ∧ t = enterException e s) := by
  unfold runInstr at h
  split at h
  · cases h
  · rename_i hc
    refine ⟨hc, ?_⟩
    split at h
    · rename_i u hu
      cases h
      exact .inl ⟨u, hu, rfl⟩
    · rename_i e he
      split at h
      · cases h
      · rename_i hp
        cases h
        exact .inr ⟨e, he, by simpa using hp, rfl⟩
    · cases h
    · cases h

/-- An instruction whose rule completes. -/
theorem runInstr_done {role : SlotRole} {body : State → Effect} {s u : State} (hc : slotCheck role s.pend = none)
    (h : body s.opened = .done u) : runInstr role body s = .next (s.close u) := by
  simp [runInstr, hc, h]

/-- An instruction whose rule raises an exception outside a slot. -/
theorem runInstr_raise {role : SlotRole} {body : State → Effect} {s : State} {e : Exc} (hp : s.pend = none)
    (h : body s.opened = .raise e) : runInstr role body s = .next (enterException e s) := by
  simp [runInstr, slotCheck, hp, h]

/-- An instruction whose rule raises an exception in a slot. -/
theorem runInstr_raise_slot {role : SlotRole} {body : State → Effect} {s : State} {e : Exc}
    (hc : slotCheck role s.pend = none) (hp : s.pend.isSome = true) (h : body s.opened = .raise e) :
    runInstr role body s = .refused .exceptionInSlot := by
  simp [runInstr, hc, hp, h]

/-- An instruction whose rule faults. -/
theorem runInstr_fault {role : SlotRole} {body : State → Effect} {s : State} {f : Fault}
    (hc : slotCheck role s.pend = none) (h : body s.opened = .fault f) : runInstr role body s = .fault f := by
  simp [runInstr, hc, h]

/-- An instruction whose rule is refused. -/
theorem runInstr_refuse {role : SlotRole} {body : State → Effect} {s : State} {r : Refusal}
    (hc : slotCheck role s.pend = none) (h : body s.opened = .refuse r) : runInstr role body s = .refused r := by
  simp [runInstr, hc, h]

/-- An instruction that may not stand where it is. -/
theorem runInstr_slot {role : SlotRole} {body : State → Effect} {s : State} {r : Refusal}
    (hc : slotCheck role s.pend = some r) : runInstr role body s = .refused r := by
  simp [runInstr, hc]

/-- All that a conditional form can do when it completes. -/
theorem ifCond_done {cc : Cond} {k : CReg} {skip : State → State} {body : State → Effect} {s u : State}
    (h : ifCond cc k skip body s = .done u) :
    (condHolds cc (s.creg k) = some false ∧ u = skip s) ∨ (condHolds cc (s.creg k) = some true ∧ body s = .done u) := by
  unfold ifCond at h
  split at h
  · cases h
  · rename_i hc; cases h; exact .inl ⟨hc, rfl⟩
  · rename_i hc; exact .inr ⟨hc, h⟩

/-- A conditional form whose condition holds. -/
theorem ifCond_true {cc : Cond} {k : CReg} {skip : State → State} {body : State → Effect} {s : State}
    (h : condHolds cc (s.creg k) = some true) : ifCond cc k skip body s = body s := by
  simp [ifCond, h]

/-- A conditional form whose condition does not hold. -/
theorem ifCond_false {cc : Cond} {k : CReg} {skip : State → State} {body : State → Effect} {s : State}
    (h : condHolds cc (s.creg k) = some false) : ifCond cc k skip body s = .done (skip s) := by
  simp [ifCond, h]

/-- A conditional form whose condition has no meaning on the flags. -/
theorem ifCond_none {cc : Cond} {k : CReg} {skip : State → State} {body : State → Effect} {s : State}
    (h : condHolds cc (s.creg k) = none) : ifCond cc k skip body s = .refuse .conditionOnInconsistentFlags := by
  simp [ifCond, h]

/-! ### What the rule of an instruction does to the state -/

/-- What the rule of `i` can make of the state `s` when it completes. -/
inductive Did (i : Instr) (s : State) : State → Prop where
  | skip (cc : Cond) (k : CReg) (hi : i.condition? = some (cc, k)) (hc : condHolds cc (s.creg k) = some false)
      (hr : i.slotRole = .plain) : Did i s s
  | skipTransfer (cc : Cond) (k : CReg) (hi : i.condition? = some (cc, k))
      (hc : condHolds cc (s.creg k) = some false) (hr : i.slotRole = .bearing) :
      Did i s (s.transfer none none (isSystemCall i))
  | idle (hr : i.slotRole = .filler) : Did i s s
  | reg (d : Reg) (v : Word) (hr : i.slotRole = .plain) : Did i s (s.setReg d v)
  | regFlags (d : Reg) (v : Word) (f : Flags) (hr : i.slotRole = .plain) (hf : writesFlags i = true) :
      Did i s ((s.setReg d v).setCreg 0#3 f)
  | flags (k : CReg) (f : Flags) (hr : i.slotRole = .plain) (hf : writesFlags i = true) : Did i s (s.setCreg k f)
  | allFlags (f : Vector Flags 8) (hr : i.slotRole = .plain) (hf : writesFlags i = true) : Did i s { s with cregs := f }
  | product (d : Reg) (v high : Word) (hr : i.slotRole = .plain) (hm : isMultiply32 i = true)
      (hc : ∀ cc k, i.condition? = some (cc, k) → condHolds cc (s.creg k) = some true) :
      Did i s { s.setReg d v with mulhi := some high }
  | status (p : PSR) (hr : i.slotRole = .plain) (hs : s.psr.um = .super) (hp : p.um = .super) : Did i s { s with psr := p }
  | store (base : Reg) (off v : Word) (hr : i.slotRole = .plain)
      (ha : storeAddress s i = some (effAddr (s.reg base) off).toNat) :
      Did i s { s with dmem := memWrite s.dmem (effAddr (s.reg base) off) v }
  | send (op : CopOp) (hr : i.slotRole = .plain) : Did i s (s.issue op)
  | receive (d : Reg) (v : Word) (op : CopOp) (hr : i.slotRole = .plain) : Did i s ((s.setReg d v).issue op)
  | jump (target : Option Word) (hr : i.slotRole = .bearing) : Did i s (s.transfer target none false)
  | call (target : Word) (hr : i.slotRole = .bearing) :
      Did i s ((s.setReg linkReg s.link).transfer (some target) none false)
  | systemCall (hr : i.slotRole = .bearing) (hi : isSystemCall i = true) :
      Did i s (({ s with psr2 := s.psr }.setSr31 s.link).transfer (some Config.sysAddr) (some .superEntry) true)
  | toUser (hr : i.slotRole = .bearing) (hs : s.psr.um = .super) :
      Did i s (s.transfer (some s.sr31) (some ⟨.user, s.psr2.ie, s.psr2.il, .set1, .set1⟩) true)
  | fromInterrupt (e : StackEntry) (rest : List StackEntry) (hr : i.slotRole = .bearing)
      (hi : isInterruptReturn i = true) (hs : s.psr.um = .super) (hh : s.hwstack = e :: rest) :
      Did i s ({ s with hwstack := rest }.transfer (some e.pc) (some e.psr) true)
  | mode (il : ILen) (hr : i.slotRole = .bearing) : Did i s (s.transfer none (some { s.psr with il := il }) true)

/-! Each shape of rule, reduced to what it does. -/

section Shapes
variable {i : Instr} {s u : State}

theorem did_done {v : State} (h : Effect.done v = Effect.done u) (hd : Did i s v) : Did i s u := by
  cases h; exact hd

theorem did_writeSigned {d : Reg} {e : Int} (h : writeSigned d e s = .done u) (hr : i.slotRole = .plain) :
    Did i s u := by
  unfold writeSigned at h
  split at h
  · cases h
  · exact did_done h (.reg _ _ hr)

theorem did_shiftByImm {f : Word → Nat → Word} {d a : Reg} {imm : BitVec 6} (h : shiftByImm f d a imm s = .done u)
    (hr : i.slotRole = .plain) : Did i s u := by
  unfold shiftByImm at h
  split at h
  · exact did_done h (.reg _ _ hr)
  · cases h

theorem did_mulhi {d : Reg} {latch : Option Word} (h : mulhiRule d latch s = .done u) (hr : i.slotRole = .plain) :
    Did i s u := by
  unfold mulhiRule at h
  split at h
  · cases h
  · exact did_done h (.reg _ _ hr)

theorem did_branchOn {n : Nat} {cc : Cond} {k : CReg} {imm : BitVec n} (h : branchOn cc k imm s = .done u)
    (hr : i.slotRole = .bearing) : Did i s u := by
  unfold branchOn at h
  split at h
  · cases h
  · exact did_done h (.jump _ hr)

theorem did_ld {d a : Reg} {off : Word} (h : ldRule d a off s = .done u) (hr : i.slotRole = .plain) : Did i s u := by
  unfold ldRule at h
  simp only at h
  split at h
  · split at h
    · cases h
    · exact did_done h (.reg _ _ hr)
  · cases h

theorem did_st {b a : Reg} {off : Word} (h : stRule b a off s = .done u) (hr : i.slotRole = .plain)
    (ha : storeAddress s i = some (wordAddress s a off)) : Did i s u := by
  unfold stRule at h
  simp only at h
  split at h
  · split at h
    · cases h
    · refine did_done h (.store _ _ _ hr ?_)
      rw [ha, wordAddress, effAddr_toNat, readReg, State.reg_eq]
  · cases h

theorem did_setInterrupts {ie : Bool} (h : setInterrupts ie s = .done u) (hr : i.slotRole = .plain) : Did i s u := by
  unfold setInterrupts at h
  split at h
  · cases h
  · exact did_done h (.status _ hr ‹_› ‹_›)

theorem did_chrs {imm : BitVec 2} (h : chrsRule imm s = .done u) (hr : i.slotRole = .plain) : Did i s u := by
  unfold chrsRule at h
  split at h
  · cases h
  · exact did_done h (.status _ hr ‹_› ‹_›)

theorem did_returnToUser (h : returnToUser s = .done u) (hr : i.slotRole = .bearing) : Did i s u := by
  unfold returnToUser at h
  split at h
  · cases h
  · exact did_done h (.toUser hr ‹_›)

theorem did_returnFromInterrupt (h : returnFromInterrupt s = .done u) (hr : i.slotRole = .bearing)
    (hi : isInterruptReturn i = true) : Did i s u := by
  unfold returnFromInterrupt at h
  split at h
  · cases h
  · split at h
    · cases h
    · exact did_done h (.fromInterrupt _ _ hr hi ‹_› ‹_›)

theorem did_copSend {n : CopNum} {op : CopOp} (h : copSend n op s = .done u) (hr : i.slotRole = .plain) :
    Did i s u := by
  unfold copSend at h
  split at h
  · exact did_done h (.send _ hr)
  · cases h

theorem did_copReceive {n : CopNum} {d r : Reg} (h : copReceive n r d s = .done u) (hr : i.slotRole = .plain) :
    Did i s u := by
  unfold copReceive at h
  split at h
  · exact did_done h (.receive _ _ _ hr)
  · cases h

/-- A conditional form without a slot: skipped, or what its rule does. -/
theorem did_ifCond {cc : Cond} {k : CReg} {body : State → Effect} (h : ifCond cc k id body s = .done u)
    (hr : i.slotRole = .plain) (hi : i.condition? = some (cc, k))
    (hb : condHolds cc (s.creg k) = some true → body s = .done u → Did i s u) : Did i s u := by
  rcases ifCond_done h with ⟨hc, rfl⟩ | ⟨hc, h⟩
  · exact .skip cc k hi hc hr
  · exact hb hc h

/-- A slot-bearing conditional form: skipped, or what its rule does. -/
theorem did_ifCond_bearing {cc : Cond} {k : CReg} {body : State → Effect}
    (h : ifCond cc k (fun t => t.transfer none none (isSystemCall i)) body s = .done u)
    (hr : i.slotRole = .bearing) (hi : i.condition? = some (cc, k)) (hb : body s = .done u → Did i s u) :
    Did i s u := by
  rcases ifCond_done h with ⟨hc, rfl⟩ | ⟨_, h⟩
  · exact .skipTransfer cc k hi hc hr
  · exact hb h

end Shapes

/-- The shape of `exec`'s answer, from the shape of its rule. -/
theorem next_of_rule {i : Instr} {s t : State} {role : SlotRole} {body : State → Effect}
    (h : runInstr role body s = .next t) (hr : i.slotRole = role)
    (hb : ∀ u, body s.opened = .done u → Did i s.opened u) :
    slotCheck i.slotRole s.pend = none ∧
      ((∃ u, Did i s.opened u ∧ t = s.close u) ∨ ∃ e, s.pend = none ∧ t = enterException e s) := by
  obtain ⟨hc, ⟨u, hu, rfl⟩ | ⟨e, _, hp, rfl⟩⟩ := runInstr_next h
  · exact ⟨hr ▸ hc, .inl ⟨u, hb u hu, rfl⟩⟩
  · exact ⟨hr ▸ hc, .inr ⟨e, hp, rfl⟩⟩

/-- All that any instruction can do when it answers a next state: it stood where it may, and either its rule did one of the
things of `Did` or it raised an exception outside a slot. -/
theorem exec_next {i : Instr} {s t : State} (h : exec i s = .next t) :
    slotCheck i.slotRole s.pend = none ∧
      ((∃ u, Did i s.opened u ∧ t = s.close u) ∨ ∃ e, s.pend = none ∧ t = enterException e s) := by
  cases i <;> simp only [exec, execAdd, execAddCond, execAddShort, execAddi, execAddiCond, execAddiShort, execAddiu,
      execAddiuCond, execAddiuShort, execAddu, execAdduCond, execAdduShort, execSub, execSubCond, execSubShort,
      execSubu, execSubuCond, execSubuShort, execCmp, execCmpShort, execCmpi, execCmpiShort, execAnd, execAndCond,
      execAndShort, execAndi, execAndiCond, execAndiShort, execOr, execOrCond, execOrShort, execOri, execOriCond,
      execOriShort, execXor, execXorCond, execXorShort, execNot, execNotCond, execNotShort, execMov, execMovCond,
      execMovShort, execLli, execLui, execConb, execConbCond, execConbShort, execConh, execConhCond, execConhShort,
      execExb, execExbCond, execExbShort, execExh, execExhCond, execExhShort, execExbfi, execExbf, execExbfCond,
      execExbfShort, execSexti, execSextiCond, execSextiShort, execSext, execSextCond, execSextShort, execSll,
      execSllCond, execSllShort, execSlli, execSlliCond, execSlliShort, execSrl, execSrlCond, execSrlShort,
      execSrli, execSrliCond, execSrliShort, execSra, execSraCond, execSraShort, execSrai, execSraiCond,
      execSraiShort, execMuli, execMuliCond, execMuliShort, execMuls, execMulsCond, execMulsShort, execMulu,
      execMuluCond, execMuluShort, execMulus, execMulusCond, execMulusShort, execMuls16, execMuls16Cond,
      execMuls16Short, execMulu16, execMulu16Cond, execMulu16Short, execMulus16, execMulus16Cond, execMulus16Short,
      execMulhi, execMulhiCond, execMulhiShort, execBc, execBcShort, execBegt, execBegtShort, execBelt,
      execBeltShort, execBeq, execBeqShort, execBgt, execBgtShort, execBlt, execBltShort, execBne, execBneShort,
      execJal, execJalShort, execJalr, execJalrCond, execJalrShort, execJmp, execJmpShort, execJmpr, execJmprCond,
      execJmprShort, execNop, execNopShort, execLd, execLdCond, execLdShort, execSt, execStCond, execStShort,
      execChrs, execChrsShort, execDi, execDiShort, execEi, execEiShort, execScon, execSconShort, execRcon,
      execRconShort, execScall, execScallCond, execScallShort, execRetu, execRetuShort, execReti, execRetiShort,
      execSwm, execSwmShort, execTrap, execTrapShort, execCop, execMovdfc, execMovdfcCond, execMovdfcShort,
      execMovcfc, execMovcfcCond, execMovcfcShort, execMovdtc, execMovdtcCond, execMovdtcShort, execMovctc,
      execMovctcCond, execMovctcShort, plain, plainIf, bearing, bearingIf] at h
  case add | addShort | addi | addiShort | sub | subShort =>
    refine next_of_rule h rfl fun u hu => ?_; exact did_writeSigned hu rfl
  case addCond | addiCond | subCond =>
    refine next_of_rule h rfl fun u hu => ?_; exact did_ifCond hu rfl rfl fun _ hu => did_writeSigned hu rfl
  case addu | adduShort | addiu | addiuShort | subu | subuShort =>
    refine next_of_rule h rfl fun u hu => ?_; exact did_done hu (.regFlags _ _ _ rfl rfl)
  case adduCond | addiuCond | subuCond =>
    refine next_of_rule h rfl fun u hu => ?_; exact did_ifCond hu rfl rfl fun _ hu => did_done hu (.regFlags _ _ _ rfl rfl)
  case cmp | cmpShort | cmpi | cmpiShort =>
    refine next_of_rule h rfl fun u hu => ?_; exact did_done hu (.flags _ _ rfl rfl)
  case and | andShort | andi | andiShort | or | orShort | ori | oriShort | xor | xorShort | not | notShort | mov |
      movShort | lli | lui | conb | conbShort | conh | conhShort | exb | exbShort | exh | exhShort | exbfi | exbf |
      exbfShort | sexti | sextiShort | sext | sextShort | sll | sllShort | srl | srlShort | sra | sraShort | muls16 |
      muls16Short | mulu16 | mulu16Short | mulus16 | mulus16Short | scon | sconShort =>
    refine next_of_rule h rfl fun u hu => ?_; exact did_done hu (.reg _ _ rfl)
  case andCond | andiCond | orCond | oriCond | xorCond | notCond | movCond | conbCond | conhCond | exbCond | exhCond |
      exbfCond | sextiCond | sextCond | sllCond | srlCond | sraCond | muls16Cond | mulu16Cond | mulus16Cond =>
    refine next_of_rule h rfl fun u hu => ?_; exact did_ifCond hu rfl rfl fun _ hu => did_done hu (.reg _ _ rfl)
  case slli | slliShort | srli | srliShort | srai | sraiShort =>
    refine next_of_rule h rfl fun u hu => ?_; exact did_shiftByImm hu rfl
  case slliCond | srliCond | sraiCond =>
    refine next_of_rule h rfl fun u hu => ?_; exact did_ifCond hu rfl rfl fun _ hu => did_shiftByImm hu rfl
  case muli | muliShort | muls | mulsShort | mulu | muluShort | mulus | mulusShort =>
    refine next_of_rule h rfl fun u hu => ?_; exact did_done hu (.product _ _ _ rfl rfl (by simp [Instr.condition?]))
  case muliCond | mulsCond | muluCond | mulusCond =>
    refine next_of_rule h rfl fun u hu => ?_; exact did_ifCond hu rfl rfl fun hc hu =>
      did_done hu (.product _ _ _ rfl rfl (by rintro _ _ ⟨⟩; exact hc))
  case mulhi | mulhiShort => refine next_of_rule h rfl fun u hu => ?_; exact did_mulhi hu rfl
  case mulhiCond => refine next_of_rule h rfl fun u hu => ?_; exact did_ifCond hu rfl rfl fun _ hu => did_mulhi hu rfl
  case bc | bcShort | begt | begtShort | belt | beltShort | beq | beqShort | bgt | bgtShort | blt | bltShort | bne |
      bneShort =>
    refine next_of_rule h rfl fun u hu => ?_; exact did_branchOn hu rfl
  case jmp | jmpShort | jmpr | jmprShort => refine next_of_rule h rfl fun u hu => ?_; exact did_done hu (.jump _ rfl)
  case jmprCond =>
    refine next_of_rule h rfl fun u hu => ?_; exact did_ifCond_bearing hu rfl rfl fun hu => did_done hu (.jump _ rfl)
  case jal | jalShort | jalr | jalrShort => refine next_of_rule h rfl fun u hu => ?_; exact did_done hu (.call _ rfl)
  case jalrCond =>
    refine next_of_rule h rfl fun u hu => ?_; exact did_ifCond_bearing hu rfl rfl fun hu => did_done hu (.call _ rfl)
  case nop | nopShort => refine next_of_rule h rfl fun u hu => ?_; exact did_done hu (.idle rfl)
  case ld | ldShort => refine next_of_rule h rfl fun u hu => ?_; exact did_ld hu rfl
  case ldCond => refine next_of_rule h rfl fun u hu => ?_; exact did_ifCond hu rfl rfl fun _ hu => did_ld hu rfl
  case st | stShort => refine next_of_rule h rfl fun u hu => ?_; exact did_st hu rfl rfl
  case stCond => refine next_of_rule h rfl fun u hu => ?_; exact did_ifCond hu rfl rfl fun _ hu => did_st hu rfl rfl
  case chrs | chrsShort => refine next_of_rule h rfl fun u hu => ?_; exact did_chrs hu rfl
  case di | diShort | ei | eiShort => refine next_of_rule h rfl fun u hu => ?_; exact did_setInterrupts hu rfl
  case rcon | rconShort => refine next_of_rule h rfl fun u hu => ?_; exact did_done hu (.allFlags _ rfl rfl)
  case scall | scallShort => refine next_of_rule h rfl fun u hu => ?_; exact did_done hu (.systemCall rfl rfl)
  case scallCond =>
    refine next_of_rule h rfl fun u hu => ?_; exact did_ifCond_bearing hu rfl rfl fun hu => did_done hu (.systemCall rfl rfl)
  case retu | retuShort => refine next_of_rule h rfl fun u hu => ?_; exact did_returnToUser hu rfl
  case reti | retiShort => refine next_of_rule h rfl fun u hu => ?_; exact did_returnFromInterrupt hu rfl rfl
  case swm | swmShort => refine next_of_rule h rfl fun u hu => ?_; exact did_done hu (.mode _ rfl)
  case trap | trapShort => refine next_of_rule h rfl fun u hu => ?_; cases hu
  case cop | movdtc | movdtcShort | movctc | movctcShort =>
    refine next_of_rule h rfl fun u hu => ?_; exact did_copSend hu rfl
  case movdtcCond | movctcCond =>
    refine next_of_rule h rfl fun u hu => ?_; exact did_ifCond hu rfl rfl fun _ hu => did_copSend hu rfl
  case movdfc | movdfcShort | movcfc | movcfcShort => refine next_of_rule h rfl fun u hu => ?_; exact did_copReceive hu rfl
  case movdfcCond | movcfcCond =>
    refine next_of_rule h rfl fun u hu => ?_; exact did_ifCond hu rfl rfl fun _ hu => did_copReceive hu rfl

/-! ### `step` -/

/-- All that a step can do: an interrupt is entered, or the fetched instruction runs. -/
theorem step_next {s t : State} (h : step s = .next t) :
    (∃ src, s.takenInterrupt = some src ∧ enterInterrupt src s.absorb = .next t) ∨
      ∃ i, s.takenInterrupt = none ∧ fetch s = .next i ∧ exec i s.absorb = .next t := by
  unfold step at h
  split at h
  · exact .inl ⟨_, ‹_›, h⟩
  · split at h
    · exact .inr ⟨_, ‹_›, ‹_›, h⟩
    · cases h
    · cases h

/-- All that the entry of an interrupt can do. -/
theorem enterInterrupt_next {src : Nat} {s t : State} (h : enterInterrupt src s = .next t) :
    s.hwstack.length < Config.hwStackDepth ∧
      t = { s with
        hwstack := ⟨s.pc, s.psr⟩ :: s.hwstack
        intpend := s.intpend.filter (· != src)
        psr := .superEntry
        pc := Config.intAddr src
        mulhi := none } := by
  unfold enterInterrupt at h
  split at h
  · cases h
  · cases h
    exact ⟨by omega, rfl⟩

/-- All that a fetch can do when it answers an instruction. -/
theorem fetch_next {s : State} {i : Instr} (h : fetch s = .next i) :
    s.pc.toNat % s.psr.il.bytes = 0 ∧
      ∃ bytes, readBytes s.imem s.pc.toNat s.psr.il.bytes = some bytes ∧ decode s.psr.il bytes = .ok i := by
  unfold fetch at h
  split at h
  · cases h
  · rename_i ha
    refine ⟨by simpa using ha, ?_⟩
    split at h
    · cases h
    · split at h
      · cases h
        exact ⟨_, ‹_›, ‹_›⟩
      · cases h

/-! ### Pending sources -/

@[simp] theorem mem_addSource {n m : Nat} {ms : List Nat} : n ∈ addSource m ms ↔ n = m ∨ n ∈ ms := by
  induction ms with
  | nil => simp [addSource]
  | cons k ms ih =>
    simp only [addSource]
    split
    · simp
    · split
      · simp_all
      · simp only [List.mem_cons, ih]; tauto

/-- A set of sources with one more is in strictly rising order again. -/
theorem addSource_pairwise {m : Nat} {ms : List Nat} (h : ms.Pairwise (· < ·)) :
    (addSource m ms).Pairwise (· < ·) := by
  induction ms with
  | nil => simp [addSource]
  | cons k ms ih =>
    rw [List.pairwise_cons] at h
    simp only [addSource]
    split
    · rename_i hk
      refine List.pairwise_cons.2 ⟨fun n hn => ?_, List.pairwise_cons.2 h⟩
      rcases List.mem_cons.1 hn with rfl | hn
      · exact hk
      · exact hk.trans (h.1 n hn)
    · split
      · exact List.pairwise_cons.2 h
      · refine List.pairwise_cons.2 ⟨fun n hn => ?_, ih h.2⟩
        rcases mem_addSource.1 hn with rfl | hn
        · omega
        · exact h.1 n hn

/-- The requests that arrive are pending, with all that was pending before. -/
@[simp] theorem mem_foldl_addSource {rs ms : List Nat} {n : Nat} :
    n ∈ rs.foldl (fun ks k => addSource k ks) ms ↔ n ∈ ms ∨ n ∈ rs := by
  induction rs generalizing ms with
  | nil => simp
  | cons r rs ih => simp only [List.foldl_cons, ih, mem_addSource, List.mem_cons]; tauto

/-- The pending sources are in strictly rising order after a boundary. -/
theorem absorb_intpend_pairwise {s : State} (h : s.intpend.Pairwise (· < ·)) :
    s.absorb.intpend.Pairwise (· < ·) := by
  show (s.boundary.requests.foldl (fun ms k => addSource k ms) s.intpend).Pairwise (· < ·)
  generalize s.boundary.requests = rs
  generalize s.intpend = ms at *
  induction rs generalizing ms with
  | nil => exact h
  | cons r rs ih => exact ih _ (addSource_pairwise h)

/-- The source chosen is a pending one. -/
theorem topSource_mem {ns : List Nat} {n : Nat} (h : topSource ns = some n) : n ∈ ns := by
  induction ns generalizing n with
  | nil => cases h
  | cons m ms ih =>
    simp only [topSource] at h
    split at h
    · cases h; simp
    · split at h <;> cases h <;> simp_all

/-- There is a source to choose wherever one is pending. -/
theorem topSource_eq_none {ns : List Nat} : topSource ns = none ↔ ns = [] := by
  cases ns with
  | nil => simp [topSource]
  | cons m ms =>
    simp only [topSource]
    split
    · simp
    · split <;> simp

/-- Of two sources at most one is served before the other. -/
theorem servedBefore_asymm {a b : Nat} (h : servedBefore a b = true) : servedBefore b a = false := by
  simp only [servedBefore, Bool.or_eq_true, Bool.and_eq_true, decide_eq_true_eq, Bool.or_eq_false_iff,
    Bool.and_eq_false_iff, decide_eq_false_iff_not] at *
  omega

/-- The source that is served before every other pending one is the one chosen. -/
theorem topSource_of_first {ns : List Nat} {src : Nat} (hm : src ∈ ns)
    (h : ∀ n ∈ ns, n ≠ src → servedBefore src n = true) : topSource ns = some src := by
  induction ns with
  | nil => cases hm
  | cons m ms ih =>
    simp only [topSource]
    by_cases hms : src ∈ ms
    · rw [ih hms fun n hn => h n (List.mem_cons_of_mem _ hn)]
      by_cases he : m = src
      · simp [he]
      · simp [servedBefore_asymm (h m List.mem_cons_self he)]
    · obtain rfl : src = m := by simpa [hms] using hm
      cases hk : topSource ms with
      | none => rfl
      | some k =>
        have hkm := topSource_mem hk
        simp [h k (List.mem_cons_of_mem _ hkm) (fun e => hms (e ▸ hkm))]

end Sys2Proof.Machine
end

