-- ==== Sys2Proof/Laws/Frames.lean ====
section
/-! SUPPORT. The bridge from the operations to the vocabulary of Sys2Proof/Safety.lean: what `Executes` gives, where control
goes after an instruction, and the frames of the common results. -/

namespace Sys2Proof.Machine

/-- `L` under its two names. -/
theorem State.len_eq (s : State) : s.len = lengthNow s := by
  unfold State.len lengthNow
  cases s.psr.il <;> rfl

/-- A register read under its two names. -/
theorem reg_eq_readReg (s : State) (r : Reg) : s.reg r = readReg s r := s.reg_eq r

@[simp] theorem readReg_opened (s : State) (r : Reg) : readReg s.opened r = readReg s r := rfl
@[simp] theorem readReg_absorb (s : State) (r : Reg) : readReg s.absorb r = readReg s r := rfl

/-- `fitsSlot` is step 2 of R231. -/
theorem fitsSlot_iff {i : Instr} {s : State} : fitsSlot i s = true ↔ slotCheck i.slotRole s.pend = none := by
  unfold fitsSlot slotCheck
  cases s.pend with
  | none => simp
  | some t => cases i.slotRole <;> cases t.mustBeNop <;> simp

/-- What `Executes` says. -/
theorem executes_iff {i : Instr} {s : State} :
    Executes i s = true ↔ slotCheck i.slotRole s.pend = none ∧
      ∀ cc k, i.condition? = some (cc, k) → condHolds cc (s.creg k) = some true := by
  unfold Executes
  rw [Bool.and_eq_true, fitsSlot_iff]
  refine and_congr_right fun _ => ?_
  cases hi : i.condition? with
  | none => simp
  | some p => obtain ⟨cc, k⟩ := p; simp

/-- `pc` after an instruction whose rule makes `t`. -/
theorem close_pc (s t : State) : (s.close t).pc = nextPc s := by
  unfold State.close commit nextPc
  rcases s.pend with _ | ⟨_ | _, _, _⟩ <;> simp [State.len_eq]

/-- PSR after an instruction whose rule makes `t`. -/
theorem close_psr (s t : State) : (s.close t).psr = nextPsr s t.psr := by
  unfold State.close commit nextPsr
  rcases s.pend with _ | ⟨_, _ | _, _⟩ <;> simp

/-- A slot-bearing instruction stands outside a slot. -/
theorem pend_none_of_bearing {s : State} (h : slotCheck .bearing s.pend = none) : s.pend = none := by
  cases hp : s.pend with
  | none => rfl
  | some t => simp [slotCheck, hp] at h

/-- `pc` after an instruction outside a slot. -/
theorem close_pc_of_none {s t : State} (h : s.pend = none) : (s.close t).pc = s.pc + lengthNow s := by
  simp [close_pc, nextPc, h]

/-- PSR after an instruction outside a slot. -/
theorem close_psr_of_none {s t : State} (h : s.pend = none) : (s.close t).psr = t.psr := by
  simp [close_psr, nextPsr, h]

/-- A rule that leaves PSR and `pend` alone retires. -/
theorem retires_close {s t : State} (hp : t.psr = s.psr) (hn : t.pend = none) : Retires s (s.close t) :=
  ⟨close_pc s t, by rw [close_psr, hp], by simpa using hn⟩

/-- The special registers of a rule's result are those after the instruction. -/
theorem sameSpecial_close {s t : State} (h : SameSpecial s t) : SameSpecial s (s.close t) := by
  simpa [SameSpecial] using h

/-- The registers after a rule that writes one. -/
theorem writesReg_close (s : State) (d : Reg) (v : Word) : WritesReg s (s.close (s.opened.setReg d v)) d v := by
  intro r
  rw [State.close_set1, State.close_set2, State.setReg_set1, State.setReg_set2]
  exact ⟨rfl, rfl⟩

/-- The frame of a rule that writes one register. -/
theorem writesRegOnly_setReg (s : State) (d : Reg) (v : Word) :
    WritesRegOnly s (s.close (s.opened.setReg d v)) d v := by
  refine ⟨writesReg_close s d v, retires_close (by simp) (by simp), by simp, fun k => by simp, fun a => by simp,
    by simp, ?_⟩
  simp [SameSpecial]

/-- The frame of a rule that does nothing. -/
theorem changesNothing_idle (s : State) : ChangesNothing s (s.close s.opened) := by
  refine ⟨fun r => by simp, retires_close (by simp) (by simp), by simp, fun k => by simp, fun a => by simp, by simp, ?_⟩
  simp [SameSpecial]

/-- The frame of a rule that leaves a transfer pending. -/
theorem transfersOnly_transfer {s : State} (h : s.pend = none) (a : Option Word) (p : Option PSR) (n : Bool) :
    TransfersOnly s (s.close (s.opened.transfer a p n)) ⟨a, p, n⟩ := by
  refine ⟨fun r => by simp, ⟨close_pc_of_none h, by simp [close_psr_of_none h], by simp⟩, by simp, fun k => ?_,
    fun a => by simp, by simp, ?_⟩
  · simp [State.creg]
  · simp [SameSpecial]

/-- The frame of exception entry. -/
theorem entersException_enter (e : Exc) (s : State) : EntersException s (enterException e s) := by
  simp [EntersException, PSR.superEntry, SameRegs, SameFlags, SameMem, State.creg]

/-- A conditional form without a slot whose rule completes. -/
theorem plainIf_done {cc : Cond} {k : CReg} {body : State → Effect} {s u : State}
    (hc : slotCheck .plain s.pend = none) (hh : condHolds cc (s.creg k) = some true) (h : body s.opened = .done u) :
    plainIf cc k body s = .next (s.close u) :=
  runInstr_done hc (by rw [ifCond_true (by simpa using hh), h])

/-- A conditional form without a slot that is skipped. -/
theorem plainIf_skip {cc : Cond} {k : CReg} {body : State → Effect} {s : State}
    (hc : slotCheck .plain s.pend = none) (hh : condHolds cc (s.creg k) = some false) :
    plainIf cc k body s = .next (s.close s.opened) :=
  runInstr_done hc (ifCond_false (by simpa using hh))

/-- A slot-bearing conditional form whose rule completes. -/
theorem bearingIf_done {cc : Cond} {k : CReg} {n : Bool} {body : State → Effect} {s u : State}
    (hc : slotCheck .bearing s.pend = none) (hh : condHolds cc (s.creg k) = some true)
    (h : body s.opened = .done u) : bearingIf cc k n body s = .next (s.close u) :=
  runInstr_done hc (by rw [ifCond_true (by simpa using hh), h])

/-- A slot-bearing conditional form that is skipped. -/
theorem bearingIf_skip {cc : Cond} {k : CReg} {n : Bool} {body : State → Effect} {s : State}
    (hc : slotCheck .bearing s.pend = none) (hh : condHolds cc (s.creg k) = some false) :
    bearingIf cc k n body s = .next (s.close (s.opened.transfer none none n)) :=
  runInstr_done hc (ifCond_false (by simpa using hh))

end Sys2Proof.Machine
end

