-- ==== Sys2Proof/Laws/Operands.lean ====
section
/-! SUPPORT. What the operand functions compute, as numbers or bit by bit. -/

namespace Sys2Proof.Machine

@[simp] theorem fieldAt_toNat {m : Nat} (w : BitVec m) (lo n : Nat) :
    (fieldAt w lo n).toNat = w.toNat / 2 ^ lo % 2 ^ n := by
  simp [fieldAt, Nat.shiftRight_eq_div_pow]

/-- A concatenation as a number. -/
theorem append_toNat {m n : Nat} (a : BitVec m) (b : BitVec n) : (a ++ b).toNat = a.toNat * 2 ^ n + b.toNat := by
  rw [BitVec.toNat_append, ← Nat.shiftLeft_add_eq_or_of_lt b.isLt, Nat.shiftLeft_eq]

/-- A bit of a zero-extended immediate. -/
theorem zextImm_getLsbD {n : Nat} (imm : BitVec n) {i : Nat} (h : i < 32) :
    (zextImm imm).getLsbD i = imm.toNat.testBit i := by
  rw [zextImm, BitVec.getLsbD_setWidth]
  simp [h, BitVec.getLsbD]

/-- A zero-extended immediate as a number. -/
theorem zextImm_toNat {n : Nat} (imm : BitVec n) (h : n ≤ 32) : (zextImm imm).toNat = imm.toNat := by
  simp only [zextImm, BitVec.toNat_setWidth]
  exact Nat.mod_eq_of_lt (lt_of_lt_of_le imm.isLt (Nat.pow_le_pow_right (by omega) h))

/-- A sign-extended immediate as a number. -/
theorem sextImm_toInt {n : Nat} (imm : BitVec n) (h : n ≤ 32) : (sextImm imm).toInt = imm.toInt :=
  BitVec.toInt_signExtend_of_le h

theorem concatBytes_toNat (a b : Word) :
    (concatBytes a b).toNat = a.toNat % 2 ^ 8 * 2 ^ 8 + b.toNat % 2 ^ 8 := by
  simp only [concatBytes, toWord, BitVec.toNat_setWidth, append_toNat, fieldAt_toNat]
  omega

theorem concatHalves_toNat (a b : Word) :
    (concatHalves a b).toNat = a.toNat % 2 ^ 16 * 2 ^ 16 + b.toNat % 2 ^ 16 := by
  simp only [concatHalves, toWord, BitVec.toNat_setWidth, append_toNat, fieldAt_toNat]
  omega

theorem extractByte_toNat (v : Word) (k : BitVec 2) :
    (extractByte v k).toNat = v.toNat / 2 ^ (8 * k.toNat) % 2 ^ 8 := by
  simp only [extractByte, toWord, BitVec.toNat_setWidth, fieldAt_toNat]
  omega

theorem extractHalf_toNat (v : Word) (k : BitVec 1) :
    (extractHalf v k).toNat = v.toNat / 2 ^ (16 * k.toNat) % 2 ^ 16 := by
  have hk : k = 0#1 ∨ k = 1#1 := by
    rcases Nat.lt_or_ge k.toNat 1 with h | h
    · exact .inl (BitVec.eq_of_toNat_eq (by simp; omega))
    · exact .inr (BitVec.eq_of_toNat_eq (by have := k.isLt; simp; omega))
  rcases hk with rfl | rfl <;> simp [extractHalf, toWord] <;> omega

/-- A field that lies within the register, as a number. -/
theorem extractField_toNat {v : Word} {len : BitVec 6} {pos : BitVec 5} (h : pos.toNat + len.toNat ≤ 32) :
    (extractField v len pos).toNat = v.toNat / 2 ^ pos.toNat % 2 ^ len.toNat := by
  rw [extractField, if_pos h, BitVec.toNat_ofNat, Nat.mod_eq_of_lt]
  have hl : (2 : Nat) ^ len.toNat ≤ 2 ^ 32 := Nat.pow_le_pow_right (by omega) (by omega)
  exact lt_of_lt_of_le (Nat.mod_lt _ (Nat.two_pow_pos _)) hl

/-- A sign extension bit by bit. -/
theorem signExt_getLsbD (v : Word) (p : BitVec 5) {n : Nat} (hn : n < 32) :
    (signExt v p).getLsbD n = v.getLsbD (min n p.toNat) := by
  have := p.isLt
  simp only [signExt, BitVec.getLsbD_sshiftRight, BitVec.getLsbD_shiftLeft, BitVec.msb_shiftLeft, BitVec.getMsbD]
  grind

theorem shiftLeft_toNat (v : Word) (k : Nat) : (shiftLeft v k).toNat = v.toNat * 2 ^ k % 2 ^ 32 := by
  simp [shiftLeft, Nat.shiftLeft_eq]

theorem shiftRight_toNat (v : Word) (k : Nat) : (shiftRight v k).toNat = v.toNat / 2 ^ k := by
  simp [shiftRight, Nat.shiftRight_eq_div_pow]

theorem shiftRightArith_toInt (v : Word) (k : Nat) : (shiftRightArith v k).toInt = v.toInt / 2 ^ k := by
  simp [shiftRightArith, BitVec.toInt_sshiftRight, Int.shiftRight_eq_div_pow]

/-- The amount a register gives a shift. -/
theorem shAmt_fieldAt (v : Word) : shAmt (fieldAt v 0 6) = min (v.toNat % 64) 32 := by
  simp [shAmt]

end Sys2Proof.Machine
end

