-- ==== Sys2Proof/Laws/PerInstr.lean ====
section
/-! SUPPORT. A statement about every instruction, one lemma per constructor: its encoding has as many bytes as an
instruction of its length mode (spec/30_encoding.md R90). -/

/-- The encoding of an instruction is as long as its mode says: two bytes in 16-bit mode, four in 32-bit mode (R90). -/
def Sys2Proof.Laws.EncodeLength.Statement (i : Sys2Proof.Instr) : Prop :=
  (Sys2Proof.encode i).length = i.mode.bytes

theorem Sys2Proof.Laws.EncodeLength.add (dreg sreg1 sreg2 : Sys2Proof.Reg) :
    Statement (.add dreg sreg1 sreg2) := rfl
theorem Sys2Proof.Laws.EncodeLength.addCond (cond : Sys2Proof.Cond) (creg : Sys2Proof.CReg) (dreg sreg1 sreg2 : Sys2Proof.Reg) :
    Statement (.addCond cond creg dreg sreg1 sreg2) := rfl
theorem Sys2Proof.Laws.EncodeLength.addShort (dr sr : Sys2Proof.RegS) :
    Statement (.addShort dr sr) := rfl
theorem Sys2Proof.Laws.EncodeLength.addi (dreg sreg1 : Sys2Proof.Reg) (imm : BitVec 15) :
    Statement (.addi dreg sreg1 imm) := rfl
theorem Sys2Proof.Laws.EncodeLength.addiCond (cond : Sys2Proof.Cond) (creg : Sys2Proof.CReg) (dreg sreg1 : Sys2Proof.Reg) (imm : BitVec 9) :
    Statement (.addiCond cond creg dreg sreg1 imm) := rfl
theorem Sys2Proof.Laws.EncodeLength.addiShort (dr : Sys2Proof.RegS) (imm : BitVec 7) :
    Statement (.addiShort dr imm) := rfl
theorem Sys2Proof.Laws.EncodeLength.addiu (dreg sreg1 : Sys2Proof.Reg) (imm : BitVec 15) :
    Statement (.addiu dreg sreg1 imm) := rfl
theorem Sys2Proof.Laws.EncodeLength.addiuCond (cond : Sys2Proof.Cond) (creg : Sys2Proof.CReg) (dreg sreg1 : Sys2Proof.Reg) (imm : BitVec 9) :
    Statement (.addiuCond cond creg dreg sreg1 imm) := rfl
theorem Sys2Proof.Laws.EncodeLength.addiuShort (dr : Sys2Proof.RegS) (imm : BitVec 7) :
    Statement (.addiuShort dr imm) := rfl
theorem Sys2Proof.Laws.EncodeLength.addu (dreg sreg1 sreg2 : Sys2Proof.Reg) :
    Statement (.addu dreg sreg1 sreg2) := rfl
theorem Sys2Proof.Laws.EncodeLength.adduCond (cond : Sys2Proof.Cond) (creg : Sys2Proof.CReg) (dreg sreg1 sreg2 : Sys2Proof.Reg) :
    Statement (.adduCond cond creg dreg sreg1 sreg2) := rfl
theorem Sys2Proof.Laws.EncodeLength.adduShort (dr sr : Sys2Proof.RegS) :
    Statement (.adduShort dr sr) := rfl
theorem Sys2Proof.Laws.EncodeLength.and (dreg sreg1 sreg2 : Sys2Proof.Reg) :
    Statement (.and dreg sreg1 sreg2) := rfl
theorem Sys2Proof.Laws.EncodeLength.andCond (cond : Sys2Proof.Cond) (creg : Sys2Proof.CReg) (dreg sreg1 sreg2 : Sys2Proof.Reg) :
    Statement (.andCond cond creg dreg sreg1 sreg2) := rfl
theorem Sys2Proof.Laws.EncodeLength.andShort (dr sr : Sys2Proof.RegS) :
    Statement (.andShort dr sr) := rfl
theorem Sys2Proof.Laws.EncodeLength.andi (dreg sreg1 : Sys2Proof.Reg) (imm : BitVec 15) :
    Statement (.andi dreg sreg1 imm) := rfl
theorem Sys2Proof.Laws.EncodeLength.andiCond (cond : Sys2Proof.Cond) (creg : Sys2Proof.CReg) (dreg sreg1 : Sys2Proof.Reg) (imm : BitVec 9) :
    Statement (.andiCond cond creg dreg sreg1 imm) := rfl
theorem Sys2Proof.Laws.EncodeLength.andiShort (dr : Sys2Proof.RegS) (imm : BitVec 7) :
    Statement (.andiShort dr imm) := rfl
theorem Sys2Proof.Laws.EncodeLength.bc (creg : Sys2Proof.CReg) (imm : BitVec 22) :
    Statement (.bc creg imm) := rfl
theorem Sys2Proof.Laws.EncodeLength.bcShort (imm : BitVec 10) :
    Statement (.bcShort imm) := rfl
theorem Sys2Proof.Laws.EncodeLength.begt (creg : Sys2Proof.CReg) (imm : BitVec 22) :
    Statement (.begt creg imm) := rfl
theorem Sys2Proof.Laws.EncodeLength.begtShort (imm : BitVec 10) :
    Statement (.begtShort imm) := rfl
theorem Sys2Proof.Laws.EncodeLength.belt (creg : Sys2Proof.CReg) (imm : BitVec 22) :
    Statement (.belt creg imm) := rfl
theorem Sys2Proof.Laws.EncodeLength.beltShort (imm : BitVec 10) :
    Statement (.beltShort imm) := rfl
theorem Sys2Proof.Laws.EncodeLength.beq (creg : Sys2Proof.CReg) (imm : BitVec 22) :
    Statement (.beq creg imm) := rfl
theorem Sys2Proof.Laws.EncodeLength.beqShort (imm : BitVec 10) :
    Statement (.beqShort imm) := rfl
theorem Sys2Proof.Laws.EncodeLength.bgt (creg : Sys2Proof.CReg) (imm : BitVec 22) :
    Statement (.bgt creg imm) := rfl
theorem Sys2Proof.Laws.EncodeLength.bgtShort (imm : BitVec 10) :
    Statement (.bgtShort imm) := rfl
theorem Sys2Proof.Laws.EncodeLength.blt (creg : Sys2Proof.CReg) (imm : BitVec 22) :
    Statement (.blt creg imm) := rfl
theorem Sys2Proof.Laws.EncodeLength.bltShort (imm : BitVec 10) :
    Statement (.bltShort imm) := rfl
theorem Sys2Proof.Laws.EncodeLength.bne (creg : Sys2Proof.CReg) (imm : BitVec 22) :
    Statement (.bne creg imm) := rfl
theorem Sys2Proof.Laws.EncodeLength.bneShort (imm : BitVec 10) :
    Statement (.bneShort imm) := rfl
theorem Sys2Proof.Laws.EncodeLength.chrs (imm : BitVec 2) :
    Statement (.chrs imm) := rfl
theorem Sys2Proof.Laws.EncodeLength.chrsShort (imm : BitVec 2) :
    Statement (.chrsShort imm) := rfl
theorem Sys2Proof.Laws.EncodeLength.cmp (creg : Sys2Proof.CReg) (sreg1 sreg2 : Sys2Proof.Reg) :
    Statement (.cmp creg sreg1 sreg2) := rfl
theorem Sys2Proof.Laws.EncodeLength.cmpShort (sr1 sr2 : Sys2Proof.RegS) :
    Statement (.cmpShort sr1 sr2) := rfl
theorem Sys2Proof.Laws.EncodeLength.cmpi (creg : Sys2Proof.CReg) (sreg1 : Sys2Proof.Reg) (imm : BitVec 17) :
    Statement (.cmpi creg sreg1 imm) := rfl
theorem Sys2Proof.Laws.EncodeLength.cmpiShort (sr : Sys2Proof.RegS) (imm : BitVec 7) :
    Statement (.cmpiShort sr imm) := rfl
theorem Sys2Proof.Laws.EncodeLength.conb (dreg sreg1 sreg2 : Sys2Proof.Reg) :
    Statement (.conb dreg sreg1 sreg2) := rfl
theorem Sys2Proof.Laws.EncodeLength.conbCond (cond : Sys2Proof.Cond) (creg : Sys2Proof.CReg) (dreg sreg1 sreg2 : Sys2Proof.Reg) :
    Statement (.conbCond cond creg dreg sreg1 sreg2) := rfl
theorem Sys2Proof.Laws.EncodeLength.conbShort (dr sr : Sys2Proof.RegS) :
    Statement (.conbShort dr sr) := rfl
theorem Sys2Proof.Laws.EncodeLength.conh (dreg sreg1 sreg2 : Sys2Proof.Reg) :
    Statement (.conh dreg sreg1 sreg2) := rfl
theorem Sys2Proof.Laws.EncodeLength.conhCond (cond : Sys2Proof.Cond) (creg : Sys2Proof.CReg) (dreg sreg1 sreg2 : Sys2Proof.Reg) :
    Statement (.conhCond cond creg dreg sreg1 sreg2) := rfl
theorem Sys2Proof.Laws.EncodeLength.conhShort (dr sr : Sys2Proof.RegS) :
    Statement (.conhShort dr sr) := rfl
theorem Sys2Proof.Laws.EncodeLength.cop (imm1 : Sys2Proof.CopNum) (imm2 : BitVec 24) :
    Statement (.cop imm1 imm2) := rfl
theorem Sys2Proof.Laws.EncodeLength.di : Statement .di := rfl
theorem Sys2Proof.Laws.EncodeLength.diShort : Statement .diShort := rfl
theorem Sys2Proof.Laws.EncodeLength.ei : Statement .ei := rfl
theorem Sys2Proof.Laws.EncodeLength.eiShort : Statement .eiShort := rfl
theorem Sys2Proof.Laws.EncodeLength.exb (dreg sreg1 : Sys2Proof.Reg) (imm : BitVec 2) :
    Statement (.exb dreg sreg1 imm) := rfl
theorem Sys2Proof.Laws.EncodeLength.exbCond (cond : Sys2Proof.Cond) (creg : Sys2Proof.CReg) (dreg sreg1 : Sys2Proof.Reg) (imm : BitVec 2) :
    Statement (.exbCond cond creg dreg sreg1 imm) := rfl
theorem Sys2Proof.Laws.EncodeLength.exbShort (dr sr : Sys2Proof.RegS) (imm : BitVec 2) :
    Statement (.exbShort dr sr imm) := rfl
theorem Sys2Proof.Laws.EncodeLength.exbf (dreg sreg1 sreg2 : Sys2Proof.Reg) :
    Statement (.exbf dreg sreg1 sreg2) := rfl
theorem Sys2Proof.Laws.EncodeLength.exbfCond (cond : Sys2Proof.Cond) (creg : Sys2Proof.CReg) (dreg sreg1 sreg2 : Sys2Proof.Reg) :
    Statement (.exbfCond cond creg dreg sreg1 sreg2) := rfl
theorem Sys2Proof.Laws.EncodeLength.exbfShort (dr sr : Sys2Proof.RegS) :
    Statement (.exbfShort dr sr) := rfl
theorem Sys2Proof.Laws.EncodeLength.exbfi (dreg sreg1 : Sys2Proof.Reg) (imm : BitVec 11) :
    Statement (.exbfi dreg sreg1 imm) := rfl
theorem Sys2Proof.Laws.EncodeLength.exh (dreg sreg1 : Sys2Proof.Reg) (imm : BitVec 1) :
    Statement (.exh dreg sreg1 imm) := rfl
theorem Sys2Proof.Laws.EncodeLength.exhCond (cond : Sys2Proof.Cond) (creg : Sys2Proof.CReg) (dreg sreg1 : Sys2Proof.Reg) (imm : BitVec 1) :
    Statement (.exhCond cond creg dreg sreg1 imm) := rfl
theorem Sys2Proof.Laws.EncodeLength.exhShort (dr sr : Sys2Proof.RegS) (imm : BitVec 1) :
    Statement (.exhShort dr sr imm) := rfl
theorem Sys2Proof.Laws.EncodeLength.jal (imm : BitVec 25) :
    Statement (.jal imm) := rfl
theorem Sys2Proof.Laws.EncodeLength.jalShort (imm : BitVec 10) :
    Statement (.jalShort imm) := rfl
theorem Sys2Proof.Laws.EncodeLength.jalr (sreg1 : Sys2Proof.Reg) :
    Statement (.jalr sreg1) := rfl
theorem Sys2Proof.Laws.EncodeLength.jalrCond (cond : Sys2Proof.Cond) (creg : Sys2Proof.CReg) (sreg1 : Sys2Proof.Reg) :
    Statement (.jalrCond cond creg sreg1) := rfl
theorem Sys2Proof.Laws.EncodeLength.jalrShort (sr : Sys2Proof.RegS) :
    Statement (.jalrShort sr) := rfl
theorem Sys2Proof.Laws.EncodeLength.jmp (imm : BitVec 25) :
    Statement (.jmp imm) := rfl
theorem Sys2Proof.Laws.EncodeLength.jmpShort (imm : BitVec 10) :
    Statement (.jmpShort imm) := rfl
theorem Sys2Proof.Laws.EncodeLength.jmpr (sreg1 : Sys2Proof.Reg) :
    Statement (.jmpr sreg1) := rfl
theorem Sys2Proof.Laws.EncodeLength.jmprCond (cond : Sys2Proof.Cond) (creg : Sys2Proof.CReg) (sreg1 : Sys2Proof.Reg) :
    Statement (.jmprCond cond creg sreg1) := rfl
theorem Sys2Proof.Laws.EncodeLength.jmprShort (sr : Sys2Proof.RegS) :
    Statement (.jmprShort sr) := rfl
theorem Sys2Proof.Laws.EncodeLength.ld (dreg sreg1 : Sys2Proof.Reg) (imm : BitVec 15) :
    Statement (.ld dreg sreg1 imm) := rfl
theorem Sys2Proof.Laws.EncodeLength.ldCond (cond : Sys2Proof.Cond) (creg : Sys2Proof.CReg) (dreg sreg1 : Sys2Proof.Reg) (imm : BitVec 9) :
    Statement (.ldCond cond creg dreg sreg1 imm) := rfl
theorem Sys2Proof.Laws.EncodeLength.ldShort (dr sr : Sys2Proof.RegS) (imm : BitVec 4) :
    Statement (.ldShort dr sr imm) := rfl
theorem Sys2Proof.Laws.EncodeLength.lli (dreg : Sys2Proof.Reg) (imm : BitVec 16) :
    Statement (.lli dreg imm) := rfl
theorem Sys2Proof.Laws.EncodeLength.lui (dreg : Sys2Proof.Reg) (imm : BitVec 16) :
    Statement (.lui dreg imm) := rfl
theorem Sys2Proof.Laws.EncodeLength.mov (dreg sreg1 : Sys2Proof.Reg) :
    Statement (.mov dreg sreg1) := rfl
theorem Sys2Proof.Laws.EncodeLength.movCond (cond : Sys2Proof.Cond) (creg : Sys2Proof.CReg) (dreg sreg1 : Sys2Proof.Reg) :
    Statement (.movCond cond creg dreg sreg1) := rfl
theorem Sys2Proof.Laws.EncodeLength.movShort (dr sr : Sys2Proof.RegS) :
    Statement (.movShort dr sr) := rfl
theorem Sys2Proof.Laws.EncodeLength.movcfc (cpn : Sys2Proof.CopNum) (dreg : Sys2Proof.Reg) :
    Statement (.movcfc cpn dreg) := rfl
theorem Sys2Proof.Laws.EncodeLength.movcfcCond (cond : Sys2Proof.Cond) (creg : Sys2Proof.CReg) (cpn : Sys2Proof.CopNum) (dreg : Sys2Proof.Reg) :
    Statement (.movcfcCond cond creg cpn dreg) := rfl
theorem Sys2Proof.Laws.EncodeLength.movcfcShort (cpn : Sys2Proof.CopNum) (dr : Sys2Proof.RegS) :
    Statement (.movcfcShort cpn dr) := rfl
theorem Sys2Proof.Laws.EncodeLength.movctc (cpn : Sys2Proof.CopNum) (sreg1 : Sys2Proof.Reg) :
    Statement (.movctc cpn sreg1) := rfl
theorem Sys2Proof.Laws.EncodeLength.movctcCond (cond : Sys2Proof.Cond) (creg : Sys2Proof.CReg) (cpn : Sys2Proof.CopNum) (sreg1 : Sys2Proof.Reg) :
    Statement (.movctcCond cond creg cpn sreg1) := rfl
theorem Sys2Proof.Laws.EncodeLength.movctcShort (cpn : Sys2Proof.CopNum) (sr : Sys2Proof.RegS) :
    Statement (.movctcShort cpn sr) := rfl
theorem Sys2Proof.Laws.EncodeLength.movdfc (cpn : Sys2Proof.CopNum) (dreg cpSreg : Sys2Proof.Reg) :
    Statement (.movdfc cpn dreg cpSreg) := rfl
theorem Sys2Proof.Laws.EncodeLength.movdfcCond (cond : Sys2Proof.Cond) (creg : Sys2Proof.CReg) (cpn : Sys2Proof.CopNum) (dreg cpSreg : Sys2Proof.Reg) :
    Statement (.movdfcCond cond creg cpn dreg cpSreg) := rfl
theorem Sys2Proof.Laws.EncodeLength.movdfcShort (cpn : Sys2Proof.CopNum) (dr : Sys2Proof.RegS) (cpSreg : Sys2Proof.Reg) :
    Statement (.movdfcShort cpn dr cpSreg) := rfl
theorem Sys2Proof.Laws.EncodeLength.movdtc (cpn : Sys2Proof.CopNum) (cpDreg sreg1 : Sys2Proof.Reg) :
    Statement (.movdtc cpn cpDreg sreg1) := rfl
theorem Sys2Proof.Laws.EncodeLength.movdtcCond (cond : Sys2Proof.Cond) (creg : Sys2Proof.CReg) (cpn : Sys2Proof.CopNum) (cpDreg sreg1 : Sys2Proof.Reg) :
    Statement (.movdtcCond cond creg cpn cpDreg sreg1) := rfl
theorem Sys2Proof.Laws.EncodeLength.movdtcShort (cpn : Sys2Proof.CopNum) (cpDreg : Sys2Proof.Reg) (sr : Sys2Proof.RegS) :
    Statement (.movdtcShort cpn cpDreg sr) := rfl
theorem Sys2Proof.Laws.EncodeLength.mulhi (dreg : Sys2Proof.Reg) :
    Statement (.mulhi dreg) := rfl
theorem Sys2Proof.Laws.EncodeLength.mulhiCond (cond : Sys2Proof.Cond) (creg : Sys2Proof.CReg) (dreg : Sys2Proof.Reg) :
    Statement (.mulhiCond cond creg dreg) := rfl
theorem Sys2Proof.Laws.EncodeLength.mulhiShort (dr : Sys2Proof.RegS) :
    Statement (.mulhiShort dr) := rfl
theorem Sys2Proof.Laws.EncodeLength.muli (dreg sreg1 : Sys2Proof.Reg) (imm : BitVec 15) :
    Statement (.muli dreg sreg1 imm) := rfl
theorem Sys2Proof.Laws.EncodeLength.muliCond (cond : Sys2Proof.Cond) (creg : Sys2Proof.CReg) (dreg sreg1 : Sys2Proof.Reg) (imm : BitVec 9) :
    Statement (.muliCond cond creg dreg sreg1 imm) := rfl
theorem Sys2Proof.Laws.EncodeLength.muliShort (dr : Sys2Proof.RegS) (imm : BitVec 7) :
    Statement (.muliShort dr imm) := rfl
theorem Sys2Proof.Laws.EncodeLength.muls (dreg sreg1 sreg2 : Sys2Proof.Reg) :
    Statement (.muls dreg sreg1 sreg2) := rfl
theorem Sys2Proof.Laws.EncodeLength.mulsCond (cond : Sys2Proof.Cond) (creg : Sys2Proof.CReg) (dreg sreg1 sreg2 : Sys2Proof.Reg) :
    Statement (.mulsCond cond creg dreg sreg1 sreg2) := rfl
theorem Sys2Proof.Laws.EncodeLength.mulsShort (dr sr : Sys2Proof.RegS) :
    Statement (.mulsShort dr sr) := rfl
theorem Sys2Proof.Laws.EncodeLength.muls16 (dreg sreg1 sreg2 : Sys2Proof.Reg) :
    Statement (.muls16 dreg sreg1 sreg2) := rfl
theorem Sys2Proof.Laws.EncodeLength.muls16Cond (cond : Sys2Proof.Cond) (creg : Sys2Proof.CReg) (dreg sreg1 sreg2 : Sys2Proof.Reg) :
    Statement (.muls16Cond cond creg dreg sreg1 sreg2) := rfl
theorem Sys2Proof.Laws.EncodeLength.muls16Short (dr sr : Sys2Proof.RegS) :
    Statement (.muls16Short dr sr) := rfl
theorem Sys2Proof.Laws.EncodeLength.mulu (dreg sreg1 sreg2 : Sys2Proof.Reg) :
    Statement (.mulu dreg sreg1 sreg2) := rfl
theorem Sys2Proof.Laws.EncodeLength.muluCond (cond : Sys2Proof.Cond) (creg : Sys2Proof.CReg) (dreg sreg1 sreg2 : Sys2Proof.Reg) :
    Statement (.muluCond cond creg dreg sreg1 sreg2) := rfl
theorem Sys2Proof.Laws.EncodeLength.muluShort (dr sr : Sys2Proof.RegS) :
    Statement (.muluShort dr sr) := rfl
theorem Sys2Proof.Laws.EncodeLength.mulu16 (dreg sreg1 sreg2 : Sys2Proof.Reg) :
    Statement (.mulu16 dreg sreg1 sreg2) := rfl
theorem Sys2Proof.Laws.EncodeLength.mulu16Cond (cond : Sys2Proof.Cond) (creg : Sys2Proof.CReg) (dreg sreg1 sreg2 : Sys2Proof.Reg) :
    Statement (.mulu16Cond cond creg dreg sreg1 sreg2) := rfl
theorem Sys2Proof.Laws.EncodeLength.mulu16Short (dr sr : Sys2Proof.RegS) :
    Statement (.mulu16Short dr sr) := rfl
theorem Sys2Proof.Laws.EncodeLength.mulus (dreg sreg1 sreg2 : Sys2Proof.Reg) :
    Statement (.mulus dreg sreg1 sreg2) := rfl
theorem Sys2Proof.Laws.EncodeLength.mulusCond (cond : Sys2Proof.Cond) (creg : Sys2Proof.CReg) (dreg sreg1 sreg2 : Sys2Proof.Reg) :
    Statement (.mulusCond cond creg dreg sreg1 sreg2) := rfl
theorem Sys2Proof.Laws.EncodeLength.mulusShort (dr sr : Sys2Proof.RegS) :
    Statement (.mulusShort dr sr) := rfl
theorem Sys2Proof.Laws.EncodeLength.mulus16 (dreg sreg1 sreg2 : Sys2Proof.Reg) :
    Statement (.mulus16 dreg sreg1 sreg2) := rfl
theorem Sys2Proof.Laws.EncodeLength.mulus16Cond (cond : Sys2Proof.Cond) (creg : Sys2Proof.CReg) (dreg sreg1 sreg2 : Sys2Proof.Reg) :
    Statement (.mulus16Cond cond creg dreg sreg1 sreg2) := rfl
theorem Sys2Proof.Laws.EncodeLength.mulus16Short (dr sr : Sys2Proof.RegS) :
    Statement (.mulus16Short dr sr) := rfl
theorem Sys2Proof.Laws.EncodeLength.nop : Statement .nop := rfl
theorem Sys2Proof.Laws.EncodeLength.nopShort : Statement .nopShort := rfl
theorem Sys2Proof.Laws.EncodeLength.not (dreg sreg1 : Sys2Proof.Reg) :
    Statement (.not dreg sreg1) := rfl
theorem Sys2Proof.Laws.EncodeLength.notCond (cond : Sys2Proof.Cond) (creg : Sys2Proof.CReg) (dreg sreg1 : Sys2Proof.Reg) :
    Statement (.notCond cond creg dreg sreg1) := rfl
theorem Sys2Proof.Laws.EncodeLength.notShort (dr sr : Sys2Proof.RegS) :
    Statement (.notShort dr sr) := rfl
theorem Sys2Proof.Laws.EncodeLength.or (dreg sreg1 sreg2 : Sys2Proof.Reg) :
    Statement (.or dreg sreg1 sreg2) := rfl
theorem Sys2Proof.Laws.EncodeLength.orCond (cond : Sys2Proof.Cond) (creg : Sys2Proof.CReg) (dreg sreg1 sreg2 : Sys2Proof.Reg) :
    Statement (.orCond cond creg dreg sreg1 sreg2) := rfl
theorem Sys2Proof.Laws.EncodeLength.orShort (dr sr : Sys2Proof.RegS) :
    Statement (.orShort dr sr) := rfl
theorem Sys2Proof.Laws.EncodeLength.ori (dreg sreg1 : Sys2Proof.Reg) (imm : BitVec 15) :
    Statement (.ori dreg sreg1 imm) := rfl
theorem Sys2Proof.Laws.EncodeLength.oriCond (cond : Sys2Proof.Cond) (creg : Sys2Proof.CReg) (dreg sreg1 : Sys2Proof.Reg) (imm : BitVec 9) :
    Statement (.oriCond cond creg dreg sreg1 imm) := rfl
theorem Sys2Proof.Laws.EncodeLength.oriShort (dr : Sys2Proof.RegS) (imm : BitVec 7) :
    Statement (.oriShort dr imm) := rfl
theorem Sys2Proof.Laws.EncodeLength.rcon (sreg1 : Sys2Proof.Reg) :
    Statement (.rcon sreg1) := rfl
theorem Sys2Proof.Laws.EncodeLength.rconShort (sr : Sys2Proof.RegS) :
    Statement (.rconShort sr) := rfl
theorem Sys2Proof.Laws.EncodeLength.reti : Statement .reti := rfl
theorem Sys2Proof.Laws.EncodeLength.retiShort : Statement .retiShort := rfl
theorem Sys2Proof.Laws.EncodeLength.retu : Statement .retu := rfl
theorem Sys2Proof.Laws.EncodeLength.retuShort : Statement .retuShort := rfl
theorem Sys2Proof.Laws.EncodeLength.scall : Statement .scall := rfl
theorem Sys2Proof.Laws.EncodeLength.scallCond (cond : Sys2Proof.Cond) (creg : Sys2Proof.CReg) :
    Statement (.scallCond cond creg) := rfl
theorem Sys2Proof.Laws.EncodeLength.scallShort : Statement .scallShort := rfl
theorem Sys2Proof.Laws.EncodeLength.scon (dreg : Sys2Proof.Reg) :
    Statement (.scon dreg) := rfl
theorem Sys2Proof.Laws.EncodeLength.sconShort (dr : Sys2Proof.RegS) :
    Statement (.sconShort dr) := rfl
theorem Sys2Proof.Laws.EncodeLength.sext (dreg sreg1 sreg2 : Sys2Proof.Reg) :
    Statement (.sext dreg sreg1 sreg2) := rfl
theorem Sys2Proof.Laws.EncodeLength.sextCond (cond : Sys2Proof.Cond) (creg : Sys2Proof.CReg) (dreg sreg1 sreg2 : Sys2Proof.Reg) :
    Statement (.sextCond cond creg dreg sreg1 sreg2) := rfl
theorem Sys2Proof.Laws.EncodeLength.sextShort (dr sr : Sys2Proof.RegS) :
    Statement (.sextShort dr sr) := rfl
theorem Sys2Proof.Laws.EncodeLength.sexti (dreg sreg1 : Sys2Proof.Reg) (imm : BitVec 5) :
    Statement (.sexti dreg sreg1 imm) := rfl
theorem Sys2Proof.Laws.EncodeLength.sextiCond (cond : Sys2Proof.Cond) (creg : Sys2Proof.CReg) (dreg sreg1 : Sys2Proof.Reg) (imm : BitVec 5) :
    Statement (.sextiCond cond creg dreg sreg1 imm) := rfl
theorem Sys2Proof.Laws.EncodeLength.sextiShort (dr : Sys2Proof.RegS) (imm : BitVec 5) :
    Statement (.sextiShort dr imm) := rfl
theorem Sys2Proof.Laws.EncodeLength.sll (dreg sreg1 sreg2 : Sys2Proof.Reg) :
    Statement (.sll dreg sreg1 sreg2) := rfl
theorem Sys2Proof.Laws.EncodeLength.sllCond (cond : Sys2Proof.Cond) (creg : Sys2Proof.CReg) (dreg sreg1 sreg2 : Sys2Proof.Reg) :
    Statement (.sllCond cond creg dreg sreg1 sreg2) := rfl
theorem Sys2Proof.Laws.EncodeLength.sllShort (dr sr : Sys2Proof.RegS) :
    Statement (.sllShort dr sr) := rfl
theorem Sys2Proof.Laws.EncodeLength.slli (dreg sreg1 : Sys2Proof.Reg) (imm : BitVec 6) :
    Statement (.slli dreg sreg1 imm) := rfl
theorem Sys2Proof.Laws.EncodeLength.slliCond (cond : Sys2Proof.Cond) (creg : Sys2Proof.CReg) (dreg sreg1 : Sys2Proof.Reg) (imm : BitVec 6) :
    Statement (.slliCond cond creg dreg sreg1 imm) := rfl
theorem Sys2Proof.Laws.EncodeLength.slliShort (dr : Sys2Proof.RegS) (imm : BitVec 6) :
    Statement (.slliShort dr imm) := rfl
theorem Sys2Proof.Laws.EncodeLength.sra (dreg sreg1 sreg2 : Sys2Proof.Reg) :
    Statement (.sra dreg sreg1 sreg2) := rfl
theorem Sys2Proof.Laws.EncodeLength.sraCond (cond : Sys2Proof.Cond) (creg : Sys2Proof.CReg) (dreg sreg1 sreg2 : Sys2Proof.Reg) :
    Statement (.sraCond cond creg dreg sreg1 sreg2) := rfl
theorem Sys2Proof.Laws.EncodeLength.sraShort (dr sr : Sys2Proof.RegS) :
    Statement (.sraShort dr sr) := rfl
theorem Sys2Proof.Laws.EncodeLength.srai (dreg sreg1 : Sys2Proof.Reg) (imm : BitVec 6) :
    Statement (.srai dreg sreg1 imm) := rfl
theorem Sys2Proof.Laws.EncodeLength.sraiCond (cond : Sys2Proof.Cond) (creg : Sys2Proof.CReg) (dreg sreg1 : Sys2Proof.Reg) (imm : BitVec 6) :
    Statement (.sraiCond cond creg dreg sreg1 imm) := rfl
theorem Sys2Proof.Laws.EncodeLength.sraiShort (dr : Sys2Proof.RegS) (imm : BitVec 6) :
    Statement (.sraiShort dr imm) := rfl
theorem Sys2Proof.Laws.EncodeLength.srl (dreg sreg1 sreg2 : Sys2Proof.Reg) :
    Statement (.srl dreg sreg1 sreg2) := rfl
theorem Sys2Proof.Laws.EncodeLength.srlCond (cond : Sys2Proof.Cond) (creg : Sys2Proof.CReg) (dreg sreg1 sreg2 : Sys2Proof.Reg) :
    Statement (.srlCond cond creg dreg sreg1 sreg2) := rfl
theorem Sys2Proof.Laws.EncodeLength.srlShort (dr sr : Sys2Proof.RegS) :
    Statement (.srlShort dr sr) := rfl
theorem Sys2Proof.Laws.EncodeLength.srli (dreg sreg1 : Sys2Proof.Reg) (imm : BitVec 6) :
    Statement (.srli dreg sreg1 imm) := rfl
theorem Sys2Proof.Laws.EncodeLength.srliCond (cond : Sys2Proof.Cond) (creg : Sys2Proof.CReg) (dreg sreg1 : Sys2Proof.Reg) (imm : BitVec 6) :
    Statement (.srliCond cond creg dreg sreg1 imm) := rfl
theorem Sys2Proof.Laws.EncodeLength.srliShort (dr : Sys2Proof.RegS) (imm : BitVec 6) :
    Statement (.srliShort dr imm) := rfl
theorem Sys2Proof.Laws.EncodeLength.st (sreg2 sreg1 : Sys2Proof.Reg) (imm : BitVec 15) :
    Statement (.st sreg2 sreg1 imm) := rfl
theorem Sys2Proof.Laws.EncodeLength.stCond (cond : Sys2Proof.Cond) (creg : Sys2Proof.CReg) (sreg2 sreg1 : Sys2Proof.Reg) (imm : BitVec 9) :
    Statement (.stCond cond creg sreg2 sreg1 imm) := rfl
theorem Sys2Proof.Laws.EncodeLength.stShort (sr2 sr1 : Sys2Proof.RegS) (imm : BitVec 4) :
    Statement (.stShort sr2 sr1 imm) := rfl
theorem Sys2Proof.Laws.EncodeLength.sub (dreg sreg1 sreg2 : Sys2Proof.Reg) :
    Statement (.sub dreg sreg1 sreg2) := rfl
theorem Sys2Proof.Laws.EncodeLength.subCond (cond : Sys2Proof.Cond) (creg : Sys2Proof.CReg) (dreg sreg1 sreg2 : Sys2Proof.Reg) :
    Statement (.subCond cond creg dreg sreg1 sreg2) := rfl
theorem Sys2Proof.Laws.EncodeLength.subShort (dr sr : Sys2Proof.RegS) :
    Statement (.subShort dr sr) := rfl
theorem Sys2Proof.Laws.EncodeLength.subu (dreg sreg1 sreg2 : Sys2Proof.Reg) :
    Statement (.subu dreg sreg1 sreg2) := rfl
theorem Sys2Proof.Laws.EncodeLength.subuCond (cond : Sys2Proof.Cond) (creg : Sys2Proof.CReg) (dreg sreg1 sreg2 : Sys2Proof.Reg) :
    Statement (.subuCond cond creg dreg sreg1 sreg2) := rfl
theorem Sys2Proof.Laws.EncodeLength.subuShort (dr sr : Sys2Proof.RegS) :
    Statement (.subuShort dr sr) := rfl
theorem Sys2Proof.Laws.EncodeLength.swm (imm : BitVec 6) :
    Statement (.swm imm) := rfl
theorem Sys2Proof.Laws.EncodeLength.swmShort (imm : BitVec 6) :
    Statement (.swmShort imm) := rfl
theorem Sys2Proof.Laws.EncodeLength.trap : Statement .trap := rfl
theorem Sys2Proof.Laws.EncodeLength.trapShort : Statement .trapShort := rfl
theorem Sys2Proof.Laws.EncodeLength.xor (dreg sreg1 sreg2 : Sys2Proof.Reg) :
    Statement (.xor dreg sreg1 sreg2) := rfl
theorem Sys2Proof.Laws.EncodeLength.xorCond (cond : Sys2Proof.Cond) (creg : Sys2Proof.CReg) (dreg sreg1 sreg2 : Sys2Proof.Reg) :
    Statement (.xorCond cond creg dreg sreg1 sreg2) := rfl
theorem Sys2Proof.Laws.EncodeLength.xorShort (dr sr : Sys2Proof.RegS) :
    Statement (.xorShort dr sr) := rfl
end

