-- ==== Sys2Proof/Laws/Results.lean ====
section
/-! SUPPORT. What the results of the instructions are, in the vocabulary of Sys2Proof/Safety.lean: sums and differences with
their flags, products, saved flags, branch targets, the test for memory. -/

namespace Sys2Proof.Machine

/-- The overflow test in its two spellings. -/
theorem overflows_eq_false {e : Int} : overflows e = false ↔ FitsSigned e := by
  simp [overflows, FitsSigned]
  omega

/-- A result that fits is written exactly. -/
theorem toInt_ofInt_of_fits {e : Int} (h : FitsSigned e) : (BitVec.ofInt 32 e).toInt = e := by
  have := h.1
  have := h.2
  rw [BitVec.toInt_ofInt, Int.bmod_eq_of_le] <;> norm_num at * <;> omega

/-- A signed sum or difference that fits goes to its register. -/
theorem writeSigned_fits {d : Reg} {e : Int} {s : State} (h : FitsSigned e) :
    writeSigned d e s = .done (s.setReg d (BitVec.ofInt 32 e)) := by
  simp [writeSigned, overflows_eq_false.2 h]

/-- One that does not fit raises Overflow. -/
theorem writeSigned_overflow {d : Reg} {e : Int} {s : State} (h : ¬ FitsSigned e) :
    writeSigned d e s = .raise .overflow := by
  have : overflows e = true := by
    by_contra hn
    exact h (overflows_eq_false.1 (by simpa using hn))
  simp [writeSigned, this]

/-- A flag of the most significant bit. -/
theorem msb_eq_decide_le (v : Word) : v.msb = decide (2 ^ 31 ≤ v.toNat) := by
  simp [BitVec.msb_eq_decide]

/-- The flags of an addition. -/
theorem addFlags_eq (a b : Word) :
    addFlags a b = ⟨decide ((a + b).toNat = 0), decide (2 ^ 31 ≤ (a + b).toNat), decide (2 ^ 32 ≤ a.toNat + b.toNat)⟩ := by
  have hz : (a + b == 0#32) = decide ((a + b).toNat = 0) := by
    rw [Bool.eq_iff_iff]
    simp only [beq_iff_eq, decide_eq_true_eq]
    exact ⟨fun h => by rw [h]; rfl, fun h => BitVec.eq_of_toNat_eq h⟩
  simp only [addFlags, hz, msb_eq_decide_le]

/-- A difference modulo 2^32. -/
theorem sub_toNat_emod (a b : Word) : ((a - b).toNat : Int) = ((a.toNat : Int) - b.toNat) % 2 ^ 32 := by
  have ha := a.isLt
  have hb := b.isLt
  rw [BitVec.toNat_sub]
  omega

/-- The zero flag of a subtraction. -/
theorem subFlags_z (a b : Word) : (subFlags a b).z = decide ((a - b).toNat = 0) := by
  rw [Bool.eq_iff_iff]
  simp only [subFlags, beq_iff_eq, decide_eq_true_eq]
  exact ⟨fun h => by rw [h]; rfl, fun h => BitVec.eq_of_toNat_eq h⟩

/-- The carry of a subtraction. -/
theorem subCarry_borrow (a b : Word) : BorrowFlag a.toNat b.toNat (subCarry a b) := by
  unfold BorrowFlag subCarry
  cases Config.subCarryIsBorrow <;> simp

/-- The product put together from the register and the latch. -/
theorem product64_split (p : Int) : fieldAt (product64 p) 32 32 ++ fieldAt (product64 p) 0 32 = product64 p := by
  apply BitVec.eq_of_getLsbD_eq
  intro i hi
  simp only [fieldAt, BitVec.getLsbD_append, BitVec.getLsbD_extractLsb']
  grind

/-- A product of 64 bits as a signed number. -/
theorem product64_toInt {p : Int} (h1 : -2 ^ 63 ≤ p) (h2 : p < 2 ^ 63) : (product64 p).toInt = p := by
  rw [product64, BitVec.toInt_ofInt, Int.bmod_eq_of_le] <;> norm_num at * <;> omega

/-- A product of 64 bits as an unsigned number. -/
theorem product64_toNat {p : Nat} (h : p < 2 ^ 64) : (product64 (p : Int)).toNat = p := by
  simp [product64]
  omega

/-- The saved flags bit by bit. -/
theorem packFlags_bits (f : Vector Flags 8) (k : CReg) :
    (packFlags f).getLsbD (3 * k.toNat + 2) = (f[k.toNat]'k.isLt).z ∧
      (packFlags f).getLsbD (3 * k.toNat + 1) = (f[k.toNat]'k.isLt).n ∧
      (packFlags f).getLsbD (3 * k.toNat) = (f[k.toNat]'k.isLt).c := by
  have : ∀ n (h : n < 8), (packFlags f).getLsbD (3 * n + 2) = f[n].z ∧ (packFlags f).getLsbD (3 * n + 1) = f[n].n ∧
      (packFlags f).getLsbD (3 * n) = f[n].c := by
    intro n h
    interval_cases n <;>
      simp only [packFlags, toWord, flagBits, BitVec.getLsbD_append, BitVec.getLsbD_setWidth, BitVec.getLsbD_ofBool] <;>
      simp
  exact this k.toNat k.isLt

/-- Above the flags are zeros. -/
theorem packFlags_lt (f : Vector Flags 8) : (packFlags f).toNat < 2 ^ 24 := by
  rw [packFlags, toWord, BitVec.toNat_setWidth_of_le (by omega)]
  exact BitVec.isLt _

/-- The restored flags. -/
theorem unpackFlags_get (v : Word) (k : CReg) : (unpackFlags v)[k.toNat]'k.isLt = flagsAt v k.toNat := by
  have : ∀ n (h : n < 8), (unpackFlags v)[n] = flagsAt v n := by
    intro n h
    interval_cases n <;> rfl
  exact this k.toNat k.isLt

/-- What was saved is what is restored. -/
theorem unpackFlags_packFlags (f : Vector Flags 8) : unpackFlags (packFlags f) = f := by
  apply Vector.ext
  intro n h
  have hk := packFlags_bits f (BitVec.ofNat 3 n)
  have hn : (BitVec.ofNat 3 n).toNat = n := by simp; omega
  have hu := unpackFlags_get (packFlags f) (BitVec.ofNat 3 n)
  simp only [hn] at hk hu
  rw [hu, flagsAt, hk.1, hk.2.1, hk.2.2]

/-- `DValid` as a statement. -/
theorem dValid_iff (s : State) (a : Word) : s.dValid a = true ↔ HoldsMemory s a.toNat := by
  simp [State.dValid, HoldsMemory]

/-- The program text as a statement, at the address of a word. -/
theorem inProgramText_iff (s : State) (base off : Word) :
    s.inProgramText (effAddr base off) = true ↔ IsProgramText s (effAddr base off).toNat := by
  simp only [State.inProgramText, IsProgramText, List.any_eq_true, beq_iff_eq, effAddr_toNat]
  constructor <;> rintro ⟨x, hx, h⟩ <;> exact ⟨x, hx, by omega⟩

/-- The address of a load or store under its two names. -/
theorem effAddr_wordAddress (s : State) (a : Reg) (off : Word) :
    (effAddr (s.reg a) off).toNat = wordAddress s a off := by
  rw [effAddr_toNat, wordAddress, reg_eq_readReg]

/-- A word with a byte that holds no value cannot be read. -/
theorem memRead_eq_none {m : Memory} {a : Word} {k : Nat} (hk : k < 4) (h : readByte m (a.toNat + k) = none) :
    memRead m a = none := by
  have : readBytes m a.toNat 4 = none := by
    simp only [readBytes]
    interval_cases k <;> simp only [Nat.add_zero, Nat.add_assoc, Nat.reduceAdd] at * <;> rw [h] <;>
      (repeat' split) <;> simp_all
  simp [memRead, this]

/-- What a load does: a word in memory that holds a value goes to the register. -/
theorem ldRule_reads {d a : Reg} {off v : Word} {s : State} (hm : HoldsMemory s (wordAddress s a off))
    (hv : memRead s.dmem (effAddr (s.reg a) off) = some v) : ldRule d a off s = .done (s.setReg d v) := by
  rw [← effAddr_wordAddress, ← dValid_iff] at hm
  simp [ldRule, hm, hv]

/-- One that holds none stops it. -/
theorem ldRule_uninitialised {d a : Reg} {off : Word} {s : State} (hm : HoldsMemory s (wordAddress s a off))
    (hv : memRead s.dmem (effAddr (s.reg a) off) = none) : ldRule d a off s = .fault .uninitialisedData := by
  rw [← effAddr_wordAddress, ← dValid_iff] at hm
  simp [ldRule, hm, hv]

/-- Outside memory there is nothing to load. -/
theorem ldRule_invalid {d a : Reg} {off : Word} {s : State} (hm : ¬ HoldsMemory s (wordAddress s a off)) :
    ldRule d a off s = .fault .dataAddressInvalid := by
  rw [← effAddr_wordAddress, ← dValid_iff] at hm
  simp [ldRule, hm]

/-- What a store does: the register goes to a word in memory that is no program text, or cannot be. -/
theorem stRule_stores {b a : Reg} {off : Word} {s : State} (hm : HoldsMemory s (wordAddress s a off))
    (ht : ¬ IsProgramText s (wordAddress s a off) ∨ s.platform.unified = .separate) :
    stRule b a off s = .done { s with dmem := memWrite s.dmem (effAddr (s.reg a) off) (s.reg b) } := by
  rw [← effAddr_wordAddress] at hm ht
  rw [← dValid_iff] at hm
  rw [← inProgramText_iff] at ht
  simp only [stRule, hm, if_true]
  rw [if_neg]
  simp only [Bool.and_eq_true, bne_iff_ne, not_and_or, not_not]
  exact ht

/-- A store into the program text is refused unless the memories are separate. -/
theorem stRule_code {b a : Reg} {off : Word} {s : State} (hm : HoldsMemory s (wordAddress s a off))
    (ht : IsProgramText s (wordAddress s a off)) (hu : s.platform.unified ≠ .separate) :
    stRule b a off s = .refuse .storeToCode := by
  rw [← effAddr_wordAddress] at hm ht
  rw [← dValid_iff] at hm
  rw [← inProgramText_iff] at ht
  simp [stRule, hm, ht, hu]

/-- Outside memory there is nowhere to store. -/
theorem stRule_invalid {b a : Reg} {off : Word} {s : State} (hm : ¬ HoldsMemory s (wordAddress s a off)) :
    stRule b a off s = .fault .dataAddressInvalid := by
  rw [← effAddr_wordAddress, ← dValid_iff] at hm
  simp [stRule, hm]

/-- `chrs` in super user mode. -/
theorem chrsRule_super {imm : BitVec 2} {s : State} (h : s.psr.um = .super) :
    chrsRule imm s = .done { s with psr := { s.psr with
      rswr := if 2 ≤ imm.toNat then .set2 else .set1
      rsrd := if imm.toNat % 2 = 1 then .set2 else .set1 } } := by
  have hb : setOfBit (imm.getLsbD 1) = (if 2 ≤ imm.toNat then .set2 else .set1) ∧
      setOfBit (imm.getLsbD 0) = if imm.toNat % 2 = 1 then .set2 else .set1 := by
    revert imm
    decide
  simp only [chrsRule, h, hb.1, hb.2]

/-- `chrs` in user mode. -/
theorem chrsRule_user {imm : BitVec 2} {s : State} (h : s.psr.um = .user) :
    chrsRule imm s = .raise .privilegeViolation := by
  simp only [chrsRule, h]

/-- `ei` and `di` in super user mode. -/
theorem setInterrupts_super {ie : Bool} {s : State} (h : s.psr.um = .super) :
    setInterrupts ie s = .done { s with psr := { s.psr with ie := ie } } := by
  simp only [setInterrupts, h]

/-- `ei` and `di` in user mode. -/
theorem setInterrupts_user {ie : Bool} {s : State} (h : s.psr.um = .user) :
    setInterrupts ie s = .refuse .privilegedInUserMode := by
  simp only [setInterrupts, h]

/-- `retu` in super user mode. -/
theorem returnToUser_super {s : State} (h : s.psr.um = .super) :
    returnToUser s = .done (s.transfer (some (regOf s.set2 31#5))
      (some ⟨.user, s.psr2.ie, s.psr2.il, .set1, .set1⟩) true) := by
  simp only [returnToUser, h, State.sr31, linkReg]

/-- `retu` in user mode. -/
theorem returnToUser_user {s : State} (h : s.psr.um = .user) : returnToUser s = .refuse .privilegedInUserMode := by
  simp only [returnToUser, h]

/-- `reti` in super user mode. -/
theorem returnFromInterrupt_super {s : State} {e : StackEntry} {rest : List StackEntry} (h : s.psr.um = .super)
    (hs : s.hwstack = e :: rest) :
    returnFromInterrupt s = .done ({ s with hwstack := rest }.transfer (some e.pc) (some e.psr) true) := by
  simp only [returnFromInterrupt, h, hs]

/-- `reti` with nothing to return to. -/
theorem returnFromInterrupt_empty {s : State} (h : s.psr.um = .super) (hs : s.hwstack = []) :
    returnFromInterrupt s = .refuse .hwStackUnderflow := by
  simp only [returnFromInterrupt, h, hs]

/-- `reti` in user mode. -/
theorem returnFromInterrupt_user {s : State} (h : s.psr.um = .user) :
    returnFromInterrupt s = .refuse .privilegedInUserMode := by
  simp only [returnFromInterrupt, h]

/-- An operation sent to an attached coprocessor. -/
theorem copSend_attached {n : CopNum} {op : CopOp} {s : State} (h : s.attached n = true) :
    copSend n op s = .done (s.issue op) := by
  simp [copSend, h]

/-- A register of an attached coprocessor read. -/
theorem copReceive_attached {n : CopNum} {d r : Reg} {s : State} (h : s.attached n = true) :
    copReceive n r d s = .done ((s.setReg d (Config.copRead s.copLog n r)).issue (.read n r)) := by
  simp [copReceive, h]

/-- With nothing attached both are refused. -/
theorem cop_unattached {n : CopNum} {d r : Reg} {op : CopOp} {s : State} (h : s.attached n = false) :
    copSend n op s = .refuse .noCoprocessor ∧ copReceive n r d s = .refuse .noCoprocessor := by
  simp [copSend, copReceive, h]

/-- The low word of a product. -/
theorem product64_low (p : Int) : fieldAt (product64 p) 0 32 = BitVec.ofInt 32 p := by
  apply BitVec.eq_of_toNat_eq
  simp [product64]
  omega

/-- The target of a branch. -/
theorem branchTarget_eq {n : Nat} (s : State) (imm : BitVec n) (h : n < 32) :
    s.branchTarget imm = targetOf imm.toInt s := by
  have hd : (imm ++ 0#1).toInt = 2 * imm.toInt := by
    simp only [BitVec.toInt_eq_toNat_cond, append_toNat]
    rcases n with _ | n
    · simp
      omega
    · simp [pow_succ]
      split <;> split <;> omega
  have he : sextImm (imm ++ 0#1) = BitVec.ofInt 32 (2 * imm.toInt) := by
    apply BitVec.eq_of_toInt_eq
    have hb : (2 : Int) ^ (n - 1) ≤ 2 ^ 30 := by exact_mod_cast Nat.pow_le_pow_right (by omega) (by omega)
    have hl := BitVec.le_toInt imm
    have hu := BitVec.toInt_lt (x := imm)
    rw [sextImm_toInt _ (by omega), hd, BitVec.toInt_ofInt, Int.bmod_eq_of_le] <;> norm_num at * <;> omega
  simp [State.branchTarget, targetOf, he, State.len_eq]

/-- The link address. -/
theorem link_eq (s : State) : s.link = s.pc + lengthNow s + lengthNow s := by
  simp [State.link, State.len_eq]

end Sys2Proof.Machine
end

