-- ==== Sys2Proof/Tests/Slice0.lean ====
section
/-! SUPPORT. The tests of the model: each check of `wellFormed` refusing a term, a word of every form decoding to its
instruction, one step of every instruction with the values of spec/95_test_vectors.md, and for each statement with
hypotheses a state and operands that meet them. -/

namespace Sys2Proof.Tests

open Sys2Proof Sys2Proof.Machine

/-! ### States to test on -/

/-- The machine after reset with these registers of set 2. -/
def regs (l : List (Nat × Nat)) : State :=
  l.foldl (fun s p => s.setReg (BitVec.ofNat 5 p.1) (BitVec.ofNat 32 p.2)) State.reset

/-- The same state in 16-bit mode. -/
def in16 (s : State) : State := { s with psr := { s.psr with il := .il16 } }

/-- The same state with these flags in `c[k]`. -/
def flagged (k : CReg) (z n c : Bool) (s : State) : State := s.setCreg k ⟨z, n, c⟩

/-- The same state with these words in data memory. -/
def stored (l : List (Nat × Nat)) (s : State) : State :=
  { s with dmem := l.foldl (fun m p => memWrite m (BitVec.ofNat 32 p.1) (BitVec.ofNat 32 p.2)) s.dmem }

/-- The user code of the spec's program P4 at its start. -/
def user : State := { State.reset with pc := 0x400#32, psr := ⟨.user, true, .il32, .set1, .set1⟩ }

/-- The same state in the slot of a transfer. -/
def inSlot (n : Bool) (s : State) : State := { s with pend := some ⟨some 0x200#32, none, n⟩ }

/-- A next state of which `p` holds. -/
def gives (r : Result) (p : State → Bool) : Bool :=
  match r with
  | .next t => p t
  | _ => false

/-! ### Well-formedness -/

/-- A shift immediate of 33 is refused in each of the nine forms. -/
theorem test_wellFormed_shifts :
    wellFormed (.slli 1 2 33) = false ∧ wellFormed (.slliCond .c 0 1 2 33) = false ∧
    wellFormed (.slliShort 1 33) = false ∧ wellFormed (.srli 1 2 33) = false ∧
    wellFormed (.srliCond .c 0 1 2 33) = false ∧ wellFormed (.srliShort 1 33) = false ∧
    wellFormed (.srai 1 2 33) = false ∧ wellFormed (.sraiCond .c 0 1 2 33) = false ∧
    wellFormed (.sraiShort 1 33) = false := by
  decide

/-- Coprocessor register 0 under the name that is not canonical is refused in each of the six forms. -/
theorem test_wellFormed_coprocessor :
    wellFormed (.movdfc 1 2 0) = false ∧ wellFormed (.movdfcCond .c 0 1 2 0) = false ∧
    wellFormed (.movdfcShort 1 2 0) = false ∧ wellFormed (.movdtc 1 0 2) = false ∧
    wellFormed (.movdtcCond .c 0 1 0 2) = false ∧ wellFormed (.movdtcShort 1 0 2) = false := by
  decide

/-! ### Decoding -/

/-- 95_test_vectors.md, section 4: the illegal words, each for its own reason. -/
theorem test_decode_illegal :
    decode .il32 (bytesOfWord 0xFFFFFFFF#32) = .error .opcode ∧ decode .il16 (bytesOfHalf 0xFFFF#16) = .error .opcode ∧
    decode .il32 (bytesOfWord 0xF4000000#32) = .error .opcode ∧
    decode .il32 (bytesOfWord 0xF0000006#32) = .error .function ∧
    decode .il16 (bytesOfHalf 0xF007#16) = .error .function ∧
    decode .il32 (bytesOfWord 0xF0000102#32) = .error .reserved ∧
    decode .il32 (bytesOfWord 0x03C00823#32) = .error .condition ∧
    decode .il32 (bytesOfWord 0x78000825#32) = .error .reserved ∧
    decode .il32 (bytesOfWord 0x84000024#32) = .error .reserved ∧
    decode .il32 (bytesOfWord 0x36000003#32) = .error .conditional ∧
    decode .il16 (bytesOfHalf 0x4800#16) = .error .only32 ∧ decode .il16 (bytesOfHalf 0x5400#16) = .error .only32 ∧
    decode .il16 (bytesOfHalf 0x7000#16) = .error .only32 ∧ decode .il16 (bytesOfHalf 0x7400#16) = .error .only32 := by
  decide

/-- 95_test_vectors.md, sections 1 and 4: words with two names, and a shift that decodes and is refused later. -/
theorem test_decode_named_twice :
    decodeTableWord 32 0x7C000C01 = some (.movcfc 3 1) ∧ decodeTableWord 16 0x7F01 = some (.movcfcShort 3 1) ∧
    decodeTableWord 32 0x80000520 = some (.movctc 1 9) ∧ decodeTableWord 16 0x8107 = some (.movctcShort 1 7) ∧
    decodeTableWord 32 0xC800FC22 = some (.slli 2 1 63) ∧ decodeTableWord 16 0x1BFF = some (.bcShort (-1)) := by
  decide

/-- Words of every form of arithmetic, put together by hand from R102, R103, R110 to R112, no two of their fields alike. -/
theorem test_decode_arithmetic_a :
    decodeTableWord 32 0x000064F3 = some (.add 19#5 7#5 25#5) ∧
    decodeTableWord 32 0x022864F3 = some (.addCond .c 5#3 19#5 7#5 25#5) ∧
    decodeTableWord 16 0x001D = some (.addShort 5#3 3#3) ∧
    decodeTableWord 32 0x0529C4F3 = some (.addi 19#5 7#5 19057#15) ∧
    decodeTableWord 32 0x066CACF3 = some (.addiCond .egt 5#3 19#5 7#5 299#9) ∧
    decodeTableWord 16 0x066D = some (.addiShort 5#3 77#7) ∧
    decodeTableWord 32 0x0929C4F3 = some (.addiu 19#5 7#5 19057#15) ∧
    decodeTableWord 32 0x0AACACF3 = some (.addiuCond .elt 5#3 19#5 7#5 299#9) ∧
    decodeTableWord 16 0x0A6D = some (.addiuShort 5#3 77#7) ∧
    decodeTableWord 32 0x0C0064F3 = some (.addu 19#5 7#5 25#5) := by
  decide

/-- As before. -/
theorem test_decode_arithmetic_b :
    decodeTableWord 32 0x0EE864F3 = some (.adduCond .eq 5#3 19#5 7#5 25#5) ∧
    decodeTableWord 16 0x0C1D = some (.adduShort 5#3 3#3) ∧
    decodeTableWord 32 0xE00064F3 = some (.sub 19#5 7#5 25#5) ∧
    decodeTableWord 32 0xE32864F3 = some (.subCond .gt 5#3 19#5 7#5 25#5) ∧
    decodeTableWord 16 0xE01D = some (.subShort 5#3 3#3) ∧
    decodeTableWord 32 0xE40064F3 = some (.subu 19#5 7#5 25#5) ∧
    decodeTableWord 32 0xE76864F3 = some (.subuCond .lt 5#3 19#5 7#5 25#5) ∧
    decodeTableWord 16 0xE41D = some (.subuShort 5#3 3#3) ∧
    decodeTableWord 32 0x394064E0 = some (.cmp 5#3 7#5 25#5) ∧
    decodeTableWord 16 0x3831 = some (.cmpShort 6#3 1#3) := by
  decide

/-- As before. -/
theorem test_decode_arithmetic_c :
    decodeTableWord 32 0x3D65C9A7 = some (.cmpi 5#3 7#5 77389#17) ∧
    decodeTableWord 16 0x3E6B = some (.cmpiShort 3#3 77#7) := by
  decide

/-- Words of every form of logic, put together by hand from R102, R103, R110 to R112, no two of their fields alike. -/
theorem test_decode_logic_a :
    decodeTableWord 32 0x100064F3 = some (.and 19#5 7#5 25#5) ∧
    decodeTableWord 32 0x13A864F3 = some (.andCond .ne 5#3 19#5 7#5 25#5) ∧
    decodeTableWord 16 0x101D = some (.andShort 5#3 3#3) ∧
    decodeTableWord 32 0x1529C4F3 = some (.andi 19#5 7#5 19057#15) ∧
    decodeTableWord 32 0x162CACF3 = some (.andiCond .c 5#3 19#5 7#5 299#9) ∧
    decodeTableWord 16 0x166D = some (.andiShort 5#3 77#7) ∧
    decodeTableWord 32 0xA80064F3 = some (.or 19#5 7#5 25#5) ∧
    decodeTableWord 32 0xAA6864F3 = some (.orCond .egt 5#3 19#5 7#5 25#5) ∧
    decodeTableWord 16 0xA81D = some (.orShort 5#3 3#3) ∧
    decodeTableWord 32 0xAD29C4F3 = some (.ori 19#5 7#5 19057#15) := by
  decide

/-- As before. -/
theorem test_decode_logic_b :
    decodeTableWord 32 0xAEACACF3 = some (.oriCond .elt 5#3 19#5 7#5 299#9) ∧
    decodeTableWord 16 0xAE6D = some (.oriShort 5#3 77#7) ∧
    decodeTableWord 32 0xEC0064F3 = some (.xor 19#5 7#5 25#5) ∧
    decodeTableWord 32 0xEEE864F3 = some (.xorCond .eq 5#3 19#5 7#5 25#5) ∧
    decodeTableWord 16 0xEC1D = some (.xorShort 5#3 3#3) ∧
    decodeTableWord 32 0xA40000F3 = some (.not 19#5 7#5) ∧
    decodeTableWord 32 0xA72800F3 = some (.notCond .gt 5#3 19#5 7#5) ∧
    decodeTableWord 16 0xA41D = some (.notShort 5#3 3#3) ∧
    decodeTableWord 32 0x780000F3 = some (.mov 19#5 7#5) ∧
    decodeTableWord 32 0x7B6800F3 = some (.movCond .lt 5#3 19#5 7#5) := by
  decide

/-- As before. -/
theorem test_decode_logic_c :
    decodeTableWord 16 0x781D = some (.movShort 5#3 3#3) ∧
    decodeTableWord 32 0x701386B3 = some (.lli 19#5 39989#16) ∧
    decodeTableWord 32 0x741386B3 = some (.lui 19#5 39989#16) := by
  decide

/-- Words of every form of bit fields, put together by hand from R102, R103, R110 to R112, no two of their fields alike. -/
theorem test_decode_bit_fields_a :
    decodeTableWord 32 0x400064F3 = some (.conb 19#5 7#5 25#5) ∧
    decodeTableWord 32 0x43A864F3 = some (.conbCond .ne 5#3 19#5 7#5 25#5) ∧
    decodeTableWord 16 0x401D = some (.conbShort 5#3 3#3) ∧
    decodeTableWord 32 0x440064F3 = some (.conh 19#5 7#5 25#5) ∧
    decodeTableWord 32 0x462864F3 = some (.conhCond .c 5#3 19#5 7#5 25#5) ∧
    decodeTableWord 16 0x441D = some (.conhShort 5#3 3#3) ∧
    decodeTableWord 32 0x4C0008F3 = some (.exb 19#5 7#5 2#2) ∧
    decodeTableWord 32 0x4E6808F3 = some (.exbCond .egt 5#3 19#5 7#5 2#2) ∧
    decodeTableWord 16 0x4C9D = some (.exbShort 5#3 3#3 2#2) ∧
    decodeTableWord 32 0x580004F3 = some (.exh 19#5 7#5 1#1) := by
  decide

/-- As before. -/
theorem test_decode_bit_fields_b :
    decodeTableWord 32 0x5AA804F3 = some (.exhCond .elt 5#3 19#5 7#5 1#1) ∧
    decodeTableWord 16 0x585D = some (.exhShort 5#3 3#3 1#1) ∧
    decodeTableWord 32 0x5414C4F3 = some (.exbfi 19#5 7#5 1329#11) ∧
    decodeTableWord 32 0x500064F3 = some (.exbf 19#5 7#5 25#5) ∧
    decodeTableWord 32 0x52E864F3 = some (.exbfCond .eq 5#3 19#5 7#5 25#5) ∧
    decodeTableWord 16 0x501D = some (.exbfShort 5#3 3#3) ∧
    decodeTableWord 32 0xC00058F3 = some (.sexti 19#5 7#5 22#5) ∧
    decodeTableWord 32 0xC32858F3 = some (.sextiCond .gt 5#3 19#5 7#5 22#5) ∧
    decodeTableWord 16 0xC0B5 = some (.sextiShort 5#3 22#5) ∧
    decodeTableWord 32 0xBC0064F3 = some (.sext 19#5 7#5 25#5) := by
  decide

/-- As before. -/
theorem test_decode_bit_fields_c :
    decodeTableWord 32 0xBF6864F3 = some (.sextCond .lt 5#3 19#5 7#5 25#5) ∧
    decodeTableWord 16 0xBC1D = some (.sextShort 5#3 3#3) := by
  decide

/-- Words of every form of shifts, put together by hand from R102, R103, R110 to R112, no two of their fields alike. -/
theorem test_decode_shifts_a :
    decodeTableWord 32 0xC40064F3 = some (.sll 19#5 7#5 25#5) ∧
    decodeTableWord 32 0xC7A864F3 = some (.sllCond .ne 5#3 19#5 7#5 25#5) ∧
    decodeTableWord 16 0xC41D = some (.sllShort 5#3 3#3) ∧
    decodeTableWord 32 0xC80080F3 = some (.slli 19#5 7#5 32#6) ∧
    decodeTableWord 32 0xCA2880F3 = some (.slliCond .c 5#3 19#5 7#5 32#6) ∧
    decodeTableWord 16 0xC905 = some (.slliShort 5#3 32#6) ∧
    decodeTableWord 32 0xD40064F3 = some (.srl 19#5 7#5 25#5) ∧
    decodeTableWord 32 0xD66864F3 = some (.srlCond .egt 5#3 19#5 7#5 25#5) ∧
    decodeTableWord 16 0xD41D = some (.srlShort 5#3 3#3) ∧
    decodeTableWord 32 0xD80080F3 = some (.srli 19#5 7#5 32#6) := by
  decide

/-- As before. -/
theorem test_decode_shifts_b :
    decodeTableWord 32 0xDAA880F3 = some (.srliCond .elt 5#3 19#5 7#5 32#6) ∧
    decodeTableWord 16 0xD905 = some (.srliShort 5#3 32#6) ∧
    decodeTableWord 32 0xCC0064F3 = some (.sra 19#5 7#5 25#5) ∧
    decodeTableWord 32 0xCEE864F3 = some (.sraCond .eq 5#3 19#5 7#5 25#5) ∧
    decodeTableWord 16 0xCC1D = some (.sraShort 5#3 3#3) ∧
    decodeTableWord 32 0xD00080F3 = some (.srai 19#5 7#5 32#6) ∧
    decodeTableWord 32 0xD32880F3 = some (.sraiCond .gt 5#3 19#5 7#5 32#6) ∧
    decodeTableWord 16 0xD105 = some (.sraiShort 5#3 32#6) := by
  decide

/-- Words of every form of multiply, put together by hand from R102, R103, R110 to R112, no two of their fields alike. -/
theorem test_decode_multiply_a :
    decodeTableWord 32 0x8929C4F3 = some (.muli 19#5 7#5 19057#15) ∧
    decodeTableWord 32 0x8B6CACF3 = some (.muliCond .lt 5#3 19#5 7#5 299#9) ∧
    decodeTableWord 16 0x8A6D = some (.muliShort 5#3 77#7) ∧
    decodeTableWord 32 0x8C0064F3 = some (.muls 19#5 7#5 25#5) ∧
    decodeTableWord 32 0x8FA864F3 = some (.mulsCond .ne 5#3 19#5 7#5 25#5) ∧
    decodeTableWord 16 0x8C1D = some (.mulsShort 5#3 3#3) ∧
    decodeTableWord 32 0x940064F3 = some (.mulu 19#5 7#5 25#5) ∧
    decodeTableWord 32 0x962864F3 = some (.muluCond .c 5#3 19#5 7#5 25#5) ∧
    decodeTableWord 16 0x941D = some (.muluShort 5#3 3#3) ∧
    decodeTableWord 32 0x9C0064F3 = some (.mulus 19#5 7#5 25#5) := by
  decide

/-- As before. -/
theorem test_decode_multiply_b :
    decodeTableWord 32 0x9E6864F3 = some (.mulusCond .egt 5#3 19#5 7#5 25#5) ∧
    decodeTableWord 16 0x9C1D = some (.mulusShort 5#3 3#3) ∧
    decodeTableWord 32 0x900064F3 = some (.muls16 19#5 7#5 25#5) ∧
    decodeTableWord 32 0x92A864F3 = some (.muls16Cond .elt 5#3 19#5 7#5 25#5) ∧
    decodeTableWord 16 0x901D = some (.muls16Short 5#3 3#3) ∧
    decodeTableWord 32 0x980064F3 = some (.mulu16 19#5 7#5 25#5) ∧
    decodeTableWord 32 0x9AE864F3 = some (.mulu16Cond .eq 5#3 19#5 7#5 25#5) ∧
    decodeTableWord 16 0x981D = some (.mulu16Short 5#3 3#3) ∧
    decodeTableWord 32 0xA00064F3 = some (.mulus16 19#5 7#5 25#5) ∧
    decodeTableWord 32 0xA32864F3 = some (.mulus16Cond .gt 5#3 19#5 7#5 25#5) := by
  decide

/-- As before. -/
theorem test_decode_multiply_c :
    decodeTableWord 16 0xA01D = some (.mulus16Short 5#3 3#3) ∧
    decodeTableWord 32 0x84000013 = some (.mulhi 19#5) ∧
    decodeTableWord 32 0x87680013 = some (.mulhiCond .lt 5#3 19#5) ∧
    decodeTableWord 16 0x8405 = some (.mulhiShort 5#3) := by
  decide

/-- Words of every form of control, put together by hand from R102, R103, R110 to R112, no two of their fields alike. -/
theorem test_decode_control_a :
    decodeTableWord 32 0x196B1C65 = some (.bc 5#3 2825317#22) ∧
    decodeTableWord 16 0x1AC5 = some (.bcShort 709#10) ∧
    decodeTableWord 32 0x1D6B1C65 = some (.begt 5#3 2825317#22) ∧
    decodeTableWord 16 0x1EC5 = some (.begtShort 709#10) ∧
    decodeTableWord 32 0x216B1C65 = some (.belt 5#3 2825317#22) ∧
    decodeTableWord 16 0x22C5 = some (.beltShort 709#10) ∧
    decodeTableWord 32 0x256B1C65 = some (.beq 5#3 2825317#22) ∧
    decodeTableWord 16 0x26C5 = some (.beqShort 709#10) ∧
    decodeTableWord 32 0x296B1C65 = some (.bgt 5#3 2825317#22) ∧
    decodeTableWord 16 0x2AC5 = some (.bgtShort 709#10) := by
  decide

/-- As before. -/
theorem test_decode_control_b :
    decodeTableWord 32 0x2D6B1C65 = some (.blt 5#3 2825317#22) ∧
    decodeTableWord 16 0x2EC5 = some (.bltShort 709#10) ∧
    decodeTableWord 32 0x316B1C65 = some (.bne 5#3 2825317#22) ∧
    decodeTableWord 16 0x32C5 = some (.bneShort 709#10) ∧
    decodeTableWord 32 0x5DA3C5E7 = some (.jal 27510247#25) ∧
    decodeTableWord 16 0x5EC5 = some (.jalShort 709#10) ∧
    decodeTableWord 32 0x600000E0 = some (.jalr 7#5) ∧
    decodeTableWord 32 0x63A800E0 = some (.jalrCond .ne 5#3 7#5) ∧
    decodeTableWord 16 0x6018 = some (.jalrShort 3#3) ∧
    decodeTableWord 32 0x65A3C5E7 = some (.jmp 27510247#25) := by
  decide

/-- As before. -/
theorem test_decode_control_c :
    decodeTableWord 16 0x66C5 = some (.jmpShort 709#10) ∧
    decodeTableWord 32 0x680000E0 = some (.jmpr 7#5) ∧
    decodeTableWord 32 0x6A2800E0 = some (.jmprCond .c 5#3 7#5) ∧
    decodeTableWord 16 0x6818 = some (.jmprShort 3#3) ∧
    decodeTableWord 32 0xF0000002 = some .nop ∧
    decodeTableWord 16 0xF002 = some .nopShort := by
  decide

/-- Words of every form of memory, put together by hand from R102, R103, R110 to R112, no two of their fields alike. -/
theorem test_decode_memory :
    decodeTableWord 32 0x6D29C4F3 = some (.ld 19#5 7#5 19057#15) ∧
    decodeTableWord 32 0x6E6CACF3 = some (.ldCond .egt 5#3 19#5 7#5 299#9) ∧
    decodeTableWord 16 0x6E5D = some (.ldShort 5#3 3#3 9#4) ∧
    decodeTableWord 32 0xDD29C4F9 = some (.st 25#5 7#5 19057#15) ∧
    decodeTableWord 32 0xDEACACF9 = some (.stCond .elt 5#3 25#5 7#5 299#9) ∧
    decodeTableWord 16 0xDE71 = some (.stShort 1#3 6#3 9#4) := by
  decide

/-- Words of every form of system, put together by hand from R102, R103, R110 to R112, no two of their fields alike. -/
theorem test_decode_system_a :
    decodeTableWord 32 0x34000002 = some (.chrs 2#2) ∧
    decodeTableWord 16 0x3402 = some (.chrsShort 2#2) ∧
    decodeTableWord 32 0xF0000000 = some .di ∧
    decodeTableWord 16 0xF000 = some .diShort ∧
    decodeTableWord 32 0xF0000001 = some .ei ∧
    decodeTableWord 16 0xF001 = some .eiShort ∧
    decodeTableWord 32 0xB8000013 = some (.scon 19#5) ∧
    decodeTableWord 16 0xB805 = some (.sconShort 5#3) ∧
    decodeTableWord 32 0xB00000E0 = some (.rcon 7#5) ∧
    decodeTableWord 16 0xB018 = some (.rconShort 3#3) := by
  decide

/-- As before. -/
theorem test_decode_system_b :
    decodeTableWord 32 0xB4000000 = some .scall ∧
    decodeTableWord 32 0xB6E80000 = some (.scallCond .eq 5#3) ∧
    decodeTableWord 16 0xB400 = some .scallShort ∧
    decodeTableWord 32 0xF0000004 = some .retu ∧
    decodeTableWord 16 0xF004 = some .retuShort ∧
    decodeTableWord 32 0xF0000003 = some .reti ∧
    decodeTableWord 16 0xF003 = some .retiShort ∧
    decodeTableWord 32 0xE8000020 = some (.swm 32#6) ∧
    decodeTableWord 16 0xE820 = some (.swmShort 32#6) ∧
    decodeTableWord 32 0xF0000005 = some .trap := by
  decide

/-- As before. -/
theorem test_decode_system_c :
    decodeTableWord 16 0xF005 = some .trapShort := by
  decide

/-- Words of every form of coprocessor, put together by hand from R102, R103, R110 to R112, no two of their fields alike. -/
theorem test_decode_coprocessor_a :
    decodeTableWord 32 0x4AA5C3F1 = some (.cop 2#2 10863601#24) ∧
    decodeTableWord 32 0x7C000813 = some (.movcfc 2#2 19#5) ∧
    decodeTableWord 32 0x7F280813 = some (.movcfcCond .gt 5#3 2#2 19#5) ∧
    decodeTableWord 16 0x7E05 = some (.movcfcShort 2#2 5#3) ∧
    decodeTableWord 32 0x800008E0 = some (.movctc 2#2 7#5) ∧
    decodeTableWord 32 0x836808E0 = some (.movctcCond .lt 5#3 2#2 7#5) ∧
    decodeTableWord 16 0x8203 = some (.movctcShort 2#2 3#3) ∧
    decodeTableWord 32 0x7C0009B3 = some (.movdfc 2#2 19#5 13#5) ∧
    decodeTableWord 32 0x7FA809B3 = some (.movdfcCond .ne 5#3 2#2 19#5 13#5) ∧
    decodeTableWord 16 0x7E6D = some (.movdfcShort 2#2 5#3 13#5) := by
  decide

/-- As before. -/
theorem test_decode_coprocessor_b :
    decodeTableWord 32 0x800008F6 = some (.movdtc 2#2 22#5 7#5) ∧
    decodeTableWord 32 0x822808F6 = some (.movdtcCond .c 5#3 2#2 22#5 7#5) ∧
    decodeTableWord 16 0x82B3 = some (.movdtcShort 2#2 22#5 3#3) := by
  decide

/-! ### One step of each instruction -/

/-- 95_test_vectors.md, section 2.1. -/
theorem test_add :
    gives (exec (.add 3 1 2) (regs [(1, 0x00000005), (2, 0xFFFFFFF9)]))
      (fun t => t.reg 3 == 0xFFFFFFFE#32) = true := by
  decide

/-- 95_test_vectors.md, section 2.1. -/
theorem test_add_overflow :
    gives (exec (.add 3 1 2) (regs [(1, 0x80000000), (2, 0xFFFFFFFF)]))
      (fun t => t.epc == 0x100#32 && t.reg 3 == 0#32 && t.psr == PSR.superEntry) = true := by
  decide

/-- 95_test_vectors.md, section 2.1. -/
theorem test_addi :
    gives (exec (.addi 5 4 (-0x4000)) (regs [(4, 0)]))
      (fun t => t.reg 5 == 0xFFFFC000#32) = true := by
  decide

/-- 95_test_vectors.md, section 2.1. -/
theorem test_addi_short :
    gives (exec (.addiShort 5 (-64)) (in16 (regs [(5, 0x40)])))
      (fun t => t.reg 5 == 0#32) = true := by
  decide

/-- 95_test_vectors.md, section 2.1. -/
theorem test_addiu :
    gives (exec (.addiu 5 4 1) (regs [(4, 0x7FFFFFFF)]))
      (fun t => t.reg 5 == 0x80000000#32 && t.creg 0 == ⟨false, true, false⟩) = true := by
  decide

/-- 95_test_vectors.md, section 2.1. -/
theorem test_addiu_zero_extends :
    gives (exec (.addiu 5 4 0x7FFF) (regs [(4, 0)]))
      (fun t => t.reg 5 == 0x7FFF#32 && t.creg 0 == ⟨false, false, false⟩) = true := by
  decide

/-- 95_test_vectors.md, section 2.1. -/
theorem test_addu_carry :
    gives (exec (.addu 3 1 2) (regs [(1, 0x80000000), (2, 0x80000000)]))
      (fun t => t.reg 3 == 0#32 && t.creg 0 == ⟨true, false, true⟩) = true := by
  decide

/-- 95_test_vectors.md, section 2.1. -/
theorem test_addu_short :
    gives (exec (.adduShort 2 1) (in16 (regs [(1, 0xFFFFFFFF), (2, 2)])))
      (fun t => t.reg 2 == 1#32 && t.creg 0 == ⟨false, false, true⟩) = true := by
  decide

/-- 95_test_vectors.md, section 2.1. -/
theorem test_sub_short :
    gives (exec (.subShort 2 1) (in16 (regs [(1, 3), (2, 5)])))
      (fun t => t.reg 2 == 0xFFFFFFFE#32) = true := by
  decide

/-- 95_test_vectors.md, section 2.1. -/
theorem test_sub :
    gives (exec (.sub 3 1 2) (regs [(1, 0xFFFFFFFF), (2, 0x80000000)]))
      (fun t => t.reg 3 == 0x7FFFFFFF#32) = true := by
  decide

/-- 95_test_vectors.md, section 2.1. -/
theorem test_subu :
    gives (exec (.subu 3 1 2) (regs [(1, 3), (2, 5)]))
      (fun t => t.reg 3 == 0xFFFFFFFE#32 && !(t.creg 0).z && (t.creg 0).n) = true := by
  decide

/-- 95_test_vectors.md, section 2.1. -/
theorem test_cmp :
    gives (exec (.cmp 7 1 2) (regs [(1, 0x7FFFFFFF), (2, 0xFFFFFFFF)]))
      (fun t => !(t.creg 7).z && !(t.creg 7).n) = true := by
  decide

/-- 95_test_vectors.md, section 2.1. -/
theorem test_cmpi :
    gives (exec (.cmpi 1 4 1) (regs [(4, 0x80000000)]))
      (fun t => !(t.creg 1).z && (t.creg 1).n) = true := by
  decide

/-- 95_test_vectors.md, section 2.2. -/
theorem test_and :
    gives (exec (.and 3 1 2) (regs [(1, 0xFF00FF00), (2, 0x0FF00FF0)]))
      (fun t => t.reg 3 == 0x0F000F00#32) = true := by
  decide

/-- 95_test_vectors.md, section 2.2. -/
theorem test_andi :
    gives (exec (.andi 5 4 0x7FFF) (regs [(4, 0xFFFFFFFF)]))
      (fun t => t.reg 5 == 0x7FFF#32) = true := by
  decide

/-- 95_test_vectors.md, section 2.2. -/
theorem test_or :
    gives (exec (.or 3 1 2) (regs [(1, 0xF0F00000), (2, 0xF)]))
      (fun t => t.reg 3 == 0xF0F0000F#32) = true := by
  decide

/-- 95_test_vectors.md, section 2.2. -/
theorem test_ori :
    gives (exec (.ori 5 4 0x5678) (regs [(4, 0x12340000)]))
      (fun t => t.reg 5 == 0x12345678#32) = true := by
  decide

/-- 95_test_vectors.md, section 2.2. -/
theorem test_xor :
    gives (exec (.xor 3 1 2) (regs [(1, 0xFFFF0000), (2, 0xFF00FF00)]))
      (fun t => t.reg 3 == 0x00FFFF00#32) = true := by
  decide

/-- 95_test_vectors.md, section 2.2. -/
theorem test_not :
    gives (exec (.not 2 1) (regs [(1, 0x0000FFFF)]))
      (fun t => t.reg 2 == 0xFFFF0000#32) = true := by
  decide

/-- 95_test_vectors.md, section 2.2. -/
theorem test_mov_conditional :
    gives (exec (.movCond .lt 5 8 7) (flagged 5 false true false (regs [(7, 1)])))
      (fun t => t.reg 8 == 1#32) = true := by
  decide

/-- 95_test_vectors.md, section 2.2. -/
theorem test_lli :
    gives (exec (.lli 1 0x1234) (regs [(1, 0xFFFFFFFF)]))
      (fun t => t.reg 1 == 0x1234#32) = true := by
  decide

/-- 95_test_vectors.md, section 2.2. -/
theorem test_lui :
    gives (exec (.lui 1 0xABCD) (regs [(1, 0xFFFFFFFF)]))
      (fun t => t.reg 1 == 0xABCD0000#32) = true := by
  decide

/-- 95_test_vectors.md, section 2.3. -/
theorem test_conb :
    gives (exec (.conb 3 1 2) (regs [(1, 0x111111AB), (2, 0x222222CD)]))
      (fun t => t.reg 3 == 0xABCD#32) = true := by
  decide

/-- 95_test_vectors.md, section 2.3. -/
theorem test_conh :
    gives (exec (.conh 3 1 2) (regs [(1, 0x1111ABCD), (2, 0x22221234)]))
      (fun t => t.reg 3 == 0xABCD1234#32) = true := by
  decide

/-- 95_test_vectors.md, section 2.3. -/
theorem test_exb :
    gives (exec (.exb 2 1 2) (regs [(1, 0xAABBCCDD)]))
      (fun t => t.reg 2 == 0xBB#32) = true := by
  decide

/-- 95_test_vectors.md, section 2.3. -/
theorem test_exh :
    gives (exec (.exh 2 1 1) (regs [(1, 0xAABBCCDD)]))
      (fun t => t.reg 2 == 0xAABB#32) = true := by
  decide

/-- 95_test_vectors.md, section 1, example E1. -/
theorem test_exbfi :
    gives (exec (.exbfi 2 1 0xAA) (regs [(1, 0x00005C00)]))
      (fun t => t.reg 2 == 0x17#32) = true := by
  decide

/-- 95_test_vectors.md, section 2.3. -/
theorem test_exbfi_whole :
    gives (exec (.exbfi 2 1 0x400) (regs [(1, 0xDEADBEEF)]))
      (fun t => t.reg 2 == 0xDEADBEEF#32) = true := by
  decide

/-- 95_test_vectors.md, section 2.3. -/
theorem test_exbf :
    gives (exec (.exbf 3 1 2) (regs [(1, 0x7C00), (2, 0xFFFFF8AA)]))
      (fun t => t.reg 3 == 0x1F#32) = true := by
  decide

/-- 95_test_vectors.md, section 2.3. -/
theorem test_sexti :
    gives (exec (.sexti 2 1 0) (regs [(1, 0x12345681)]))
      (fun t => t.reg 2 == 0xFFFFFFFF#32) = true := by
  decide

/-- 95_test_vectors.md, section 2.3. -/
theorem test_sext :
    gives (exec (.sext 3 1 2) (regs [(1, 0xFFFE), (2, 0x2F)]))
      (fun t => t.reg 3 == 0xFFFFFFFE#32) = true := by
  decide

/-- 95_test_vectors.md, section 2.4. -/
theorem test_sll :
    gives (exec (.sll 3 1 2) (regs [(1, 0xFFFFFFFF), (2, 0x28)]))
      (fun t => t.reg 3 == 0#32) = true := by
  decide

/-- 95_test_vectors.md, section 2.4. -/
theorem test_sll_masked :
    gives (exec (.sll 3 1 2) (regs [(1, 0xFFFFFFFF), (2, 0x40)]))
      (fun t => t.reg 3 == 0xFFFFFFFF#32) = true := by
  decide

/-- 95_test_vectors.md, section 2.4. -/
theorem test_slli :
    gives (exec (.slli 2 1 32) (regs [(1, 0xFFFFFFFF)]))
      (fun t => t.reg 2 == 0#32) = true := by
  decide

/-- 95_test_vectors.md, section 2.4. -/
theorem test_srl :
    gives (exec (.srl 3 1 2) (regs [(1, 0x80000000), (2, 4)]))
      (fun t => t.reg 3 == 0x08000000#32) = true := by
  decide

/-- 95_test_vectors.md, section 2.4. -/
theorem test_srli :
    gives (exec (.srli 2 1 28) (regs [(1, 0xF0000000)]))
      (fun t => t.reg 2 == 0xF#32) = true := by
  decide

/-- 95_test_vectors.md, section 2.4. -/
theorem test_sra :
    gives (exec (.sra 3 1 2) (regs [(1, 0x80000000), (2, 0x3F)]))
      (fun t => t.reg 3 == 0xFFFFFFFF#32) = true := by
  decide

/-- 95_test_vectors.md, section 2.4. -/
theorem test_srai :
    gives (exec (.srai 2 1 4) (regs [(1, 0xFFFFFF00)]))
      (fun t => t.reg 2 == 0xFFFFFFF0#32) = true := by
  decide

/-- 95_test_vectors.md, section 2.5. -/
theorem test_muli :
    gives (exec (.muli 2 1 0x3FFF) (regs [(1, 0x7FFFFFFF)]))
      (fun t => t.reg 2 == 0x7FFFC001#32 && t.mulhi == some 0x1FFF#32) = true := by
  decide

/-- 95_test_vectors.md, section 2.5. -/
theorem test_muls :
    gives (exec (.muls 3 1 2) (regs [(1, 0x80000000), (2, 0x80000000)]))
      (fun t => t.reg 3 == 0#32 && t.mulhi == some 0x40000000#32) = true := by
  decide

/-- 95_test_vectors.md, section 2.5. -/
theorem test_mulu :
    gives (exec (.mulu 3 1 2) (regs [(1, 0xFFFFFFFF), (2, 0xFFFFFFFF)]))
      (fun t => t.reg 3 == 1#32 && t.mulhi == some 0xFFFFFFFE#32) = true := by
  decide

/-- 95_test_vectors.md, section 2.5. -/
theorem test_mulus :
    gives (exec (.mulus 3 1 2) (regs [(1, 0xFFFFFFFE), (2, 2)]))
      (fun t => t.reg 3 == 0xFFFFFFFC#32 && t.mulhi == some 1#32) = true := by
  decide

/-- 95_test_vectors.md, section 2.5. -/
theorem test_muls_16_short :
    gives (exec (.muls16Short 2 1) (in16 (regs [(1, 0x7FFF), (2, 0xFFFF8000)])))
      (fun t => t.reg 2 == 0xC0008000#32 && t.mulhi == none) = true := by
  decide

/-- 95_test_vectors.md, section 2.5. -/
theorem test_mulu_16 :
    gives (exec (.mulu16 3 1 2) (regs [(1, 0xAAAAFFFF), (2, 0x5555FFFF)]))
      (fun t => t.reg 3 == 0xFFFE0001#32) = true := by
  decide

/-- 95_test_vectors.md, section 2.5. -/
theorem test_mulus_16_short :
    gives (exec (.mulus16Short 2 1) (in16 (regs [(1, 0xFFFF), (2, 0x8000)])))
      (fun t => t.reg 2 == 0x80008000#32) = true := by
  decide

/-- 95_test_vectors.md, section 2.5. -/
theorem test_mulhi :
    gives (exec (.mulhi 4) { State.reset with mulhi := some 0xFFFFFFFE#32 })
      (fun t => t.reg 4 == 0xFFFFFFFE#32 && t.mulhi == none) = true := by
  decide

/-- 95_test_vectors.md, section 2.6. -/
theorem test_ld_wraps :
    gives (exec (.ld 2 1 (-4)) (stored [(0xFFFFFFFC, 0x0F0F0F0F)] (regs [(1, 2)])))
      (fun t => t.reg 2 == 0x0F0F0F0F#32) = true := by
  decide

/-- 95_test_vectors.md, section 2.6. -/
theorem test_ld_drops_low_bits :
    gives (exec (.ld 2 1 1) (stored [(0x1000, 0xAAAAAAAA), (0x1004, 0xBBBBBBBB)] (regs [(1, 0x1003)])))
      (fun t => t.reg 2 == 0xBBBBBBBB#32) = true := by
  decide

/-- 95_test_vectors.md, section 2.6. -/
theorem test_st :
    gives (exec (.st 7 6 (-1)) (regs [(6, 0x3000), (7, 0xDEADBEEF)]))
      (fun t => memRead t.dmem 0x2FFC#32 == some 0xDEADBEEF#32) = true := by
  decide

/-- 95_test_vectors.md, section 2.6. -/
theorem test_st_short :
    gives (exec (.stShort 7 6 7) (in16 (regs [(6, 0x3000), (7, 0x01020304)])))
      (fun t => memRead t.dmem 0x3004#32 == some 0x01020304#32) = true := by
  decide

/-- 95_test_vectors.md, section 2.7. -/
theorem test_bc :
    gives (exec (.bc 0 6) (flagged 0 false false true State.reset))
      (fun t => t.pend == some ⟨some 0x110#32, none, false⟩) = true := by
  decide

/-- 95_test_vectors.md, section 2.7. -/
theorem test_begt :
    gives (exec (.begt 1 8) { flagged 1 true false false State.reset with pc := 0x200#32 })
      (fun t => t.pend == some ⟨some 0x214#32, none, false⟩) = true := by
  decide

/-- 95_test_vectors.md, section 2.7. -/
theorem test_belt_not_taken :
    gives (exec (.belt 0 2) { flagged 0 false false true State.reset with pc := 0x40#32 })
      (fun t => t.pend == some ⟨none, none, false⟩) = true := by
  decide

/-- 95_test_vectors.md, section 2.7. -/
theorem test_beq_farthest :
    gives (exec (.beq 7 (-2097152)) { flagged 7 true false false State.reset with pc := 0x400000#32 })
      (fun t => t.pend == some ⟨some 0x4#32, none, false⟩) = true := by
  decide

/-- 95_test_vectors.md, section 2.7. -/
theorem test_bgt :
    gives (exec (.bgt 2 (-4)) { flagged 2 false false false State.reset with pc := 0x110#32 })
      (fun t => t.pend == some ⟨some 0x10C#32, none, false⟩) = true := by
  decide

/-- 95_test_vectors.md, section 2.7. -/
theorem test_blt :
    gives (exec (.blt 0 2) (flagged 0 false true false State.reset))
      (fun t => t.pend == some ⟨some 0x108#32, none, false⟩) = true := by
  decide

/-- 95_test_vectors.md, section 2.7. -/
theorem test_bne_short :
    gives (exec (.bneShort (-512)) { in16 (flagged 0 false true true State.reset) with pc := 0x1000#32 })
      (fun t => t.pend == some ⟨some 0xC02#32, none, false⟩) = true := by
  decide

/-- 95_test_vectors.md, section 2.7. -/
theorem test_jal :
    gives (exec (.jal (-16777216)) { State.reset with pc := 0x2000000#32 })
      (fun t => t.reg 31 == 0x02000008#32 && t.pend == some ⟨some 0x4#32, none, false⟩) = true := by
  decide

/-- 95_test_vectors.md, section 2.7. -/
theorem test_jalr_link_register :
    gives (exec (.jalr 31) (regs [(31, 0x2000)]))
      (fun t => t.reg 31 == 0x108#32 && t.pend == some ⟨some 0x2000#32, none, false⟩) = true := by
  decide

/-- 95_test_vectors.md, section 2.7. -/
theorem test_jmp_wraps :
    gives (exec (.jmp 16777215) { State.reset with pc := 0xFFFFFFF0#32 })
      (fun t => t.pend == some ⟨some 0x1FFFFF2#32, none, false⟩) = true := by
  decide

/-- 95_test_vectors.md, section 2.7. -/
theorem test_jmpr :
    gives (exec (.jmpr 31) { regs [(31, 0x1008)] with pc := 0x10A0#32 })
      (fun t => t.pend == some ⟨some 0x1008#32, none, false⟩) = true := by
  decide

/-- 95_test_vectors.md, section 2.7. -/
theorem test_nop_short :
    gives (exec (.nopShort) { in16 State.reset with mulhi := some 5#32 })
      (fun t => t.mulhi == none && t.pc == 0x102#32 && t.set2 == State.reset.set2) = true := by
  decide

/-- 95_test_vectors.md, section 2.8. -/
theorem test_chrs :
    gives (exec (.chrs 1) State.reset)
      (fun t => t.psr.rswr == .set1 && t.psr.rsrd == .set2) = true := by
  decide

/-- 95_test_vectors.md, section 2.8. -/
theorem test_chrs_user :
    gives (exec (.chrs 3) user)
      (fun t => t.epc == 0x400#32 && t.psr == PSR.superEntry) = true := by
  decide

/-- 95_test_vectors.md, section 2.8. -/
theorem test_di :
    gives (exec (.di) { State.reset with psr := { PSR.superEntry with ie := true } })
      (fun t => !t.psr.ie) = true := by
  decide

/-- 95_test_vectors.md, section 2.8. -/
theorem test_ei :
    gives (exec (.ei) State.reset)
      (fun t => t.psr.ie) = true := by
  decide

/-- 95_test_vectors.md, section 2.8. -/
theorem test_scon :
    gives (exec (.scon 1) (flagged 0 true false true (flagged 1 false true false State.reset)))
      (fun t => t.reg 1 == 0x15#32) = true := by
  decide

/-- 95_test_vectors.md, section 2.8, two of its rows and the ignored bits in one word. -/
theorem test_rcon :
    gives (exec (.rcon 2) (regs [(2, 0xFFA00405)]))
      (fun t => t.creg 0 == ⟨true, false, true⟩ && t.creg 3 == ⟨false, true, false⟩ && t.creg 7 == ⟨true, false, true⟩ && t.creg 1 == ⟨false, false, false⟩) = true := by
  decide

/-- 95_test_vectors.md, section 2.8. -/
theorem test_scall :
    gives (exec (.scall) user)
      (fun t => t.psr2 == ⟨.user, true, .il32, .set1, .set1⟩ && regOf t.set2 31 == 0x408#32 && t.pc == 0x404#32 &&
      t.psr == ⟨.user, true, .il32, .set1, .set1⟩) = true := by
  decide

/-- 95_test_vectors.md, section 2.8. -/
theorem test_retu :
    gives (exec (.retu) { regs [(31, 0x802)] with psr2 := ⟨.super, true, .il16, .set2, .set1⟩ })
      (fun t => t.pend == some ⟨some 0x802#32, some ⟨.user, true, .il16, .set1, .set1⟩, true⟩) = true := by
  decide

/-- 95_test_vectors.md, section 2.8. -/
theorem test_reti :
    gives (exec (.reti) { State.reset with hwstack := [⟨0x120#32, ⟨.user, true, .il16, .set1, .set1⟩⟩] })
      (fun t => t.hwstack == [] && t.pend == some ⟨some 0x120#32, some ⟨.user, true, .il16, .set1, .set1⟩, true⟩) = true := by
  decide

/-- 95_test_vectors.md, section 2.8. -/
theorem test_swm :
    gives (exec (.swm 16) State.reset)
      (fun t => t.pend == some ⟨none, some ⟨.super, false, .il16, .set2, .set2⟩, true⟩) = true := by
  decide

/-- 95_test_vectors.md, section 2.8. -/
theorem test_swm_63 :
    gives (exec (.swm 63) State.reset)
      (fun t => t.pend == some ⟨none, some PSR.superEntry, true⟩) = true := by
  decide

/-- 95_test_vectors.md, section 2.8. -/
theorem test_trap_short :
    gives (exec (.trapShort) { user with pc := 0xABC0#32, psr := ⟨.user, true, .il16, .set1, .set1⟩ })
      (fun t => t.epc == 0xABC0#32 && t.psr == PSR.superEntry && t.pend == none) = true := by
  decide

/-- 95_test_vectors.md, section 2.9. -/
theorem test_cop :
    gives (exec (.cop 2 0x123456) State.reset)
      (fun t => t.copLog == [.exec 2#2 0x123456#24]) = true := by
  decide

/-- 95_test_vectors.md, section 2.9. -/
theorem test_movdtc_short :
    gives (exec (.movdtcShort 0 5 2) (in16 (regs [(2, 0xBEEF)])))
      (fun t => t.copLog == [.write 0#2 5#5 0xBEEF#32]) = true := by
  decide

/-- 95_test_vectors.md, section 2.9. -/
theorem test_movctc :
    gives (exec (.movctc 1 9) (regs [(9, 1)]))
      (fun t => t.copLog == [.write 1#2 0#5 1#32]) = true := by
  decide

/-- 95_test_vectors.md, section 2.9. -/
theorem test_movdfc :
    gives (exec (.movdfcCond .c 7 0 31 31) (flagged 7 false false true State.reset))
      (fun t => t.copLog == [.read 0#2 31#5]) = true := by
  decide

/-- 95_test_vectors.md, section 2.9. -/
theorem test_movcfc :
    gives (exec (.movcfc 3 1) State.reset)
      (fun t => t.copLog == [.read 3#2 0#5]) = true := by
  decide


/-! ### Whole steps -/

/-- A word placed after reset is the first instruction to run, in each mode (log entry 20). -/
theorem test_step_placed :
    gives (step (State.reset.withFetchWord 32 0x70024681)) (fun t => t.reg 1 == 0x1234#32) = true ∧
    gives (step ((regs [(1, 5), (3, 7)]).withFetchWord 16 0x000B))
      (fun t => t.reg 3 == 0xC#32 && t.pc == 0x102#32) = true := by
  decide

/-- 95_test_vectors.md, section 2.10: the interrupt is taken before the instruction at 0x120. -/
theorem test_step_interrupt :
    gives (step { State.reset with
      pc := 0x120#32, psr := ⟨.user, true, .il16, .set1, .set1⟩, env := [⟨[7], true⟩] })
      (fun t => t.hwstack == [⟨0x120#32, ⟨.user, true, .il16, .set1, .set1⟩⟩] && t.psr == PSR.superEntry &&
        t.intpend == []) = true := by
  simp [gives, step, State.takenInterrupt, State.boundary, State.dueInterrupt, State.absorb, addSource, topSource,
    enterInterrupt, Config.hwStackDepth, State.reset]

/-! ### The hypotheses of the statements can be met

For each statement with hypotheses, a state and operands that meet all of them together. -/

/-- A next state of which `p` holds, as a witness. -/
theorem of_gives {r : Result} {p : State → Bool} (h : gives r p = true) : ∃ t, r = .next t ∧ p t = true := by
  cases r with
  | next t => exact ⟨t, rfl, h⟩
  | fault => cases h
  | refused => cases h

/-- A state in which `(eq, 0)` holds. -/
def ready : State := flagged 0 true false false State.reset

theorem test_witness_DecodeEncode :
    wellFormed (.slli 1 2 32) = true ∧ wellFormed (.sraiShort 7 0) = true ∧ wellFormed (.movdfc 3 31 1) = true ∧
    wellFormed (.movdtcShort 0 31 7) = true ∧ wellFormed (.add 31 0 31) = true := by
  decide

theorem test_witness_EncodeDecode :
    decode .il32 [0x00#8, 0x00#8, 0x08#8, 0x23#8] = .ok (.add 3 1 2) ∧
    decode .il16 [0x00#8, 0x0B#8] = .ok (.addShort 3 1) := by
  decide

/-- One word of each class. -/
theorem test_witness_IllegalWordsRejected :
    61 ≤ (0xF4000000#32).toNat / 2 ^ 26 ∧
    ((0xF0000006#32).toNat / 2 ^ 26 = 60 ∧ 6 ≤ (0xF0000006#32).toNat % 8) ∧
    ((0x03C00823#32).toNat / 2 ^ 26 ≠ 18 ∧ (0x03C00823#32).getLsbD 25 = true ∧
      (0x03C00823#32).toNat / 2 ^ 22 % 8 = 7) ∧
    ((0x36000003#32).toNat / 2 ^ 26 ∈ [6, 7, 8, 9, 10, 11, 12, 13, 14, 15, 21, 23, 25, 28, 29, 44, 46, 58, 60] ∧
      (0x36000003#32).getLsbD 25 = true) ∧
    61 ≤ (0xF400#16).toNat / 2 ^ 10 ∧ (0x4800#16).toNat / 2 ^ 10 ∈ [18, 21, 28, 29] ∧
    ((0xF006#16).toNat / 2 ^ 10 = 60 ∧ 6 ≤ (0xF006#16).toNat % 8) := by
  decide

/-- In each mode; the second with requests arriving that are not taken. -/
theorem test_witness_StepRunsDecoded :
    (State.reset.withFetchWord 32 0x00000823).takenInterrupt = none ∧
    (State.reset.withFetchWord 32 0x00000823).pc.toNat % ILen.il32.bytes = 0 ∧
    readBytes (State.reset.withFetchWord 32 0x00000823).imem 0x100 4 = some [0x00#8, 0x00#8, 0x08#8, 0x23#8] ∧
    decode .il32 [0x00#8, 0x00#8, 0x08#8, 0x23#8] = .ok (.add 3 1 2) ∧
    { State.reset.withFetchWord 16 0x000B with env := [⟨[5], false⟩] }.takenInterrupt = none ∧
    readBytes (State.reset.withFetchWord 16 0x000B).imem 0x100 2 = some [0x00#8, 0x0B#8] ∧
    decode .il16 [0x00#8, 0x0B#8] = .ok (.addShort 3 1) := by
  decide

/-- Half a word off, one byte off, nothing there, and an illegal word. -/
theorem test_witness_FetchStops :
    { State.reset with pc := 0x102#32 }.takenInterrupt = none ∧ ¬ (0x102#32).toNat % ILen.il32.bytes = 0 ∧
    ¬ (0x101#32).toNat % ILen.il16.bytes = 0 ∧
    (State.reset.pc.toNat % ILen.il32.bytes = 0 ∧ readBytes State.reset.imem State.reset.pc.toNat 4 = none) ∧
    readBytes (State.reset.withFetchWord 32 0xF4000000).imem 0x100 4 = some [0xF4#8, 0x00#8, 0x00#8, 0x00#8] ∧
    decode .il32 [0xF4#8, 0x00#8, 0x00#8, 0x00#8] = .error .opcode := by
  decide

/-- One source alone, pending before or only now; and of two sources one is first, whatever the ranks are. The stack has
room for one entry at least, and a stack of the full depth has none. -/
theorem test_witness_InterruptEntry :
    (∀ n, n ∈ [3] ∨ n ∈ [3] → n ≠ 3 → servedBefore 3 n = true) ∧
    (∃ src, (src ∈ [1] ∨ src ∈ [2]) ∧ ∀ n, n ∈ [1] ∨ n ∈ [2] → n ≠ src → servedBefore src n = true) ∧
    ([] : List StackEntry).length < Config.hwStackDepth ∧
    ¬ (List.replicate Config.hwStackDepth (⟨0#32, PSR.superEntry⟩ : StackEntry)).length < Config.hwStackDepth := by
  refine ⟨by simp, ?_, by simp [Config.hwStackDepth], by simp⟩
  cases h : servedBefore 1 2 with
  | true => exact ⟨1, by simp, by simp [h]⟩
  | false =>
    refine ⟨2, by simp, ?_⟩
    simp [servedBefore] at *
    omega

/-- The state of the witness: everything but IE is as a taken interrupt needs it, and the step completes. -/
theorem test_witness_InterruptHeldOff :
    (∃ t, step { State.reset.withFetchWord 32 0xF0000002 with env := [⟨[3], true⟩] } = .next t ∧
      (t.intpend == [3]) = true) ∧
    { State.reset.withFetchWord 32 0xF0000002 with env := [⟨[3], true⟩] }.psr.ie = false ∧
    (inSlot false State.reset).pend ≠ none ∧ State.reset.env = [] ∧
    { State.reset with env := [⟨[3], false⟩] }.boundary.take = false ∧
    ({ State.reset with env := [⟨[], true⟩] }.intpend = [] ∧
      { State.reset with env := [⟨[], true⟩] }.boundary.requests = []) := by
  exact ⟨of_gives (by decide), by decide⟩

/-- A state that is legal, in user mode, about to run the word `w`. -/
def userAt (w : Nat) : State := user.withFetchWord 32 w

theorem userAt_inv (w : Nat) : (userAt w).Inv where
  dmem := by simp [userAt, user, State.withFetchWord, placeInstr, State.reset, Memory.wf]
  imem := by
    refine ⟨?_, ?_⟩ <;>
      simp [userAt, user, State.withFetchWord, placeInstr, State.reset, bytesOfBits, modeOfBits, bytesOfWord, writeBytes,
        writeByte]
  intpend := List.Pairwise.nil
  depth := Nat.zero_le _
  psr := fun _ => ⟨rfl, rfl⟩
  stacked := fun e h => nomatch h
  pend := fun t h => nomatch h

theorem test_witness_StepKeepsInv : (userAt 0xF0000005).Inv ∧ ∃ t, step (userAt 0xF0000005) = .next t := by
  obtain ⟨t, h, _⟩ := of_gives (r := step (userAt 0xF0000005)) (p := fun _ => true) (by decide)
  exact ⟨userAt_inv _, t, h⟩

theorem test_witness_CodeIsFixed : ∃ t, step (userAt 0xF0000002) = .next t ∧ (t.pc == 0x404#32) = true :=
  of_gives (by decide)

/-- A `scall` of user mode changes SR31. -/
theorem test_witness_UserLeavesSet2 :
    (userAt 0xB4000000).psr.um = .user ∧ (userAt 0xB4000000).psr.Legal ∧
      ∃ t, step (userAt 0xB4000000) = .next t ∧ (regOf t.set2 31 != regOf (userAt 0xB4000000).set2 31) = true :=
  ⟨rfl, fun _ => ⟨rfl, rfl⟩, of_gives (by decide)⟩

theorem test_witness_UserCannotSeeSet2 :
    (userAt 0x04000421).psr.um = .user ∧ (userAt 0x04000421).psr.Legal ∧
      Vector.replicate 32 1#32 ≠ (userAt 0x04000421).set2 :=
  ⟨rfl, fun _ => ⟨rfl, rfl⟩, by decide⟩

/-- User mode left by `trap`, and `scall` about to leave it. -/
theorem test_witness_LeavingUserMode :
    (userAt 0xF0000005).Inv ∧ (userAt 0xB4000000).Inv ∧ user.psr.um = .user ∧
      (∃ t, step (userAt 0xF0000005) = .next t ∧ (t.psr.um == .super) = true) ∧
      ∃ t, step (userAt 0xB4000000) = .next t ∧
        (t.pend.bind (·.newPSR) == some PSR.superEntry) = true :=
  ⟨userAt_inv _, userAt_inv _, rfl, of_gives (by decide), of_gives (by decide)⟩

/-- `addiu r5, r4, 0` sets Z. -/
theorem test_witness_FlagWriters :
    ∃ t, step (userAt 0x08000085) = .next t ∧ (t.creg 0 != (userAt 0x08000085).creg 0) = true :=
  of_gives (by decide)

theorem test_witness_LatchWriters : ∃ t, step (userAt 0x8C000823) = .next t ∧ (t.mulhi != none) = true :=
  of_gives (by decide)

/-- `scall`, `trap`, `reti`, and an interrupt. -/
theorem test_witness_SpecialRegisterWriters :
    (∃ t, step (userAt 0xB4000000) = .next t ∧ (t.psr2 != (userAt 0xB4000000).psr2) = true) ∧
    (∃ t, step (userAt 0xF0000005) = .next t ∧ (t.epc != (userAt 0xF0000005).epc) = true) ∧
    (∃ t, step { State.reset.withFetchWord 32 0xF0000003 with hwstack := [⟨0#32, PSR.superEntry⟩] } = .next t ∧
      (t.hwstack == []) = true) ∧
    ∃ t, step { user with env := [⟨[7], true⟩] } = .next t ∧ (t.hwstack != []) = true := by
  refine ⟨of_gives (by decide), of_gives (by decide), of_gives (by decide), of_gives ?_⟩
  simp [gives, step, State.takenInterrupt, State.boundary, State.dueInterrupt, State.absorb, addSource, topSource,
    enterInterrupt, Config.hwStackDepth, user, State.reset]

/-- The first and the last byte of the word. -/
theorem test_witness_MemoryWriters :
    ∃ t, step ((regs [(6, 0x3000), (7, 0xDEADBEEF)]).withFetchWord 32 0xDC0020C7) = .next t ∧
      (readByte t.dmem 0x3008 != readByte State.reset.dmem 0x3008 &&
        readByte t.dmem 0x300B != readByte State.reset.dmem 0x300B) = true :=
  of_gives (by decide)

/-- A slot that may hold anything and one that must hold a `nop`, with a new PSR and without. -/
theorem test_witness_SlotCompletes :
    (∃ t, exec (.add 3 1 2) (inSlot false State.reset) = .next t ∧ (t.pc == 0x200#32) = true) ∧
    ∃ t, exec .nop { State.reset with pend := some ⟨none, some ⟨.super, false, .il16, .set2, .set2⟩, true⟩ } = .next t ∧
      (t.pc == 0x104#32 && t.psr.il == .il16) = true :=
  ⟨of_gives (by decide), of_gives (by decide)⟩

/-- One past the end of the range, in a slot that the instruction may fill. -/
theorem test_witness_SlotRestrictions :
    let s := inSlot false ready
    (inSlot true user).pend = some ⟨some 0x200#32, none, true⟩ ∧ s.pend = some ⟨some 0x200#32, none, false⟩ ∧
    (Instr.jmp 4).slotRole = .bearing ∧ (Instr.lli 1 3).slotRole = .plain ∧
    Executes .trap s = true ∧ Executes .trapShort s = true ∧ Executes (.chrs 0) (inSlot false user) = true ∧
    Executes (.chrsShort 3) (inSlot false user) = true ∧ (inSlot false user).psr.um = .user ∧
    Executes (.add 3 1 2) s = true ∧
    Executes (.addCond .eq 0 3 1 2) s = true ∧
    Executes (.addShort 3 1) s = true ∧
    Executes (.addi 3 1 2) s = true ∧
    Executes (.addiCond .eq 0 3 1 2) s = true ∧
    Executes (.addiShort 3 2) s = true ∧
    Executes (.sub 3 1 2) s = true ∧
    Executes (.subCond .eq 0 3 1 2) s = true ∧
    Executes (.subShort 3 1) s = true ∧
    ¬ FitsSigned ((0x7FFFFFFF#32).toInt + (1#32).toInt) ∧ ¬ FitsSigned ((0x7FFFFFFF#32).toInt + (1#15).toInt) ∧
    ¬ FitsSigned ((0x80000000#32).toInt - (1#32).toInt) ∧
    readReg (inSlot false (regs [(1, 0x7FFFFFFF)])) 1 = 0x7FFFFFFF#32 := by
  unfold FitsSigned
  decide

/-- An ordinary form, a jump and `scall`. -/
theorem test_witness_SkippedForms :
    (Instr.addCond .ne 0 3 1 2).condition? = some (.ne, 0) ∧ (Instr.jalrCond .ne 0 5).condition? = some (.ne, 0) ∧
    (Instr.scallCond .ne 0).condition? = some (.ne, 0) ∧ (Instr.addCond .ne 0 3 1 2).slotRole ≠ .bearing ∧
    (Instr.scallCond .ne 0).slotRole = .bearing ∧ fitsSlot (.addCond .ne 0 3 1 2) (inSlot false ready) = true ∧
    fitsSlot (.jalrCond .ne 0 5) ready = true ∧ fitsSlot (.scallCond .ne 0) ready = true ∧
    condHolds .ne (ready.creg 0) = some false := by
  decide

theorem test_witness_InconsistentCondition :
    let s := flagged 0 true true false State.reset
    (Instr.movCond .lt 0 8 7).condition? = some (.lt, 0) ∧ (Instr.movCond .c 0 8 7).condition? = some (.c, 0) ∧
    fitsSlot (.movCond .lt 0 8 7) s = true ∧ (s.creg 0).z = true ∧ (s.creg 0).n = true ∧ Cond.lt ∈ [Cond.lt, .egt, .gt, .elt] ∧
    Cond.c ∈ [Cond.c, .eq, .ne] := by
  decide

/-- Z = N = 1 and every other pair of flags. -/
theorem test_witness_ConditionTable : ¬ (true = true ∧ false = true) ∧ (true = true ∧ true = true) := by
  decide

/-- Less, equal and greater, at the ends of the range, and each of the four forms. -/
theorem test_witness_ConditionAfterCompare :
    (∃ t, exec (.cmp 7 1 2) (regs [(1, 0x80000000), (2, 0x7FFFFFFF)]) = .next t ∧ (t.creg 7).n = true) ∧
    (∃ t, exec (.cmp 0 1 2) (regs [(1, 0x80000000), (2, 0x80000000)]) = .next t ∧ (t.creg 0).z = true) ∧
    (∃ t, exec (.cmpShort 1 2) (regs [(1, 0x7FFFFFFF), (2, 0x80000000)]) = .next t ∧ (!(t.creg 0).n) = true) ∧
    (∃ t, exec (.cmpi 7 1 (-1)) (regs [(1, 0xFFFFFFFF)]) = .next t ∧ (t.creg 7).z = true) ∧
    ∃ t, exec (.cmpiShort 1 (-64)) (regs [(1, 0x80000000)]) = .next t ∧ (t.creg 0).n = true :=
  ⟨of_gives (by decide), of_gives (by decide), of_gives (by decide), of_gives (by decide), of_gives (by decide)⟩

/-- The largest sum and the smallest difference that fit. -/
theorem test_witness_SignedAddSub :
    Executes (.add 3 1 2) ready = true ∧
    Executes (.addCond .eq 0 3 1 2) ready = true ∧
    Executes (.addShort 3 1) ready = true ∧
    Executes (.addi 3 1 2) ready = true ∧
    Executes (.addiCond .eq 0 3 1 2) ready = true ∧
    Executes (.addiShort 3 2) ready = true ∧
    Executes (.sub 3 1 2) ready = true ∧
    Executes (.subCond .eq 0 3 1 2) ready = true ∧
    Executes (.subShort 3 1) ready = true ∧
    FitsSigned ((0x7FFFFFFE#32).toInt + (1#32).toInt) ∧ FitsSigned ((0x7FFFFFFE#32).toInt + (1#15).toInt) ∧
    FitsSigned ((0x80000001#32).toInt - (1#32).toInt) ∧
    (regs [(1, 0x7FFFFFFE)]).reg 1 = 0x7FFFFFFE#32 := by
  unfold FitsSigned
  decide

/-- One past each of them. -/
theorem test_witness_SignedOverflow :
    Executes (.add 3 1 2) ready = true ∧
    Executes (.addCond .eq 0 3 1 2) ready = true ∧
    Executes (.addShort 3 1) ready = true ∧
    Executes (.addi 3 1 2) ready = true ∧
    Executes (.addiCond .eq 0 3 1 2) ready = true ∧
    Executes (.addiShort 3 2) ready = true ∧
    Executes (.sub 3 1 2) ready = true ∧
    Executes (.subCond .eq 0 3 1 2) ready = true ∧
    Executes (.subShort 3 1) ready = true ∧
    ready.pend = none ∧ ¬ FitsSigned ((0x7FFFFFFF#32).toInt + (1#32).toInt) ∧
    ¬ FitsSigned ((0x7FFFFFFF#32).toInt + (1#15).toInt) ∧ ¬ FitsSigned ((0x80000000#32).toInt - (1#32).toInt) ∧
    (regs [(1, 0x7FFFFFFF)]).reg 1 = 0x7FFFFFFF#32 := by
  unfold FitsSigned
  decide

theorem test_witness_UnsignedAddSub :
    Executes (.addu 3 1 2) ready = true ∧
    Executes (.adduCond .eq 0 3 1 2) ready = true ∧
    Executes (.adduShort 3 1) ready = true ∧
    Executes (.addiu 3 1 2) ready = true ∧
    Executes (.addiuCond .eq 0 3 1 2) ready = true ∧
    Executes (.addiuShort 3 2) ready = true ∧
    Executes (.subu 3 1 2) ready = true ∧
    Executes (.subuCond .eq 0 3 1 2) ready = true ∧
    Executes (.subuShort 3 1) ready = true := by
  decide

theorem test_witness_Compare :
    Executes (.cmp 7 1 2) ready = true ∧
    Executes (.cmpShort 1 2) ready = true ∧
    Executes (.cmpi 0 1 (-65536)) ready = true ∧
    Executes (.cmpiShort 1 (-64)) ready = true := by
  decide

theorem test_witness_Logic :
    Executes (.and 3 1 2) ready = true ∧
    Executes (.andCond .eq 0 3 1 2) ready = true ∧
    Executes (.andShort 3 1) ready = true ∧
    Executes (.andi 3 1 2) ready = true ∧
    Executes (.andiCond .eq 0 3 1 2) ready = true ∧
    Executes (.andiShort 3 2) ready = true ∧
    Executes (.or 3 1 2) ready = true ∧
    Executes (.orCond .eq 0 3 1 2) ready = true ∧
    Executes (.orShort 3 1) ready = true ∧
    Executes (.ori 3 1 2) ready = true ∧
    Executes (.oriCond .eq 0 3 1 2) ready = true ∧
    Executes (.oriShort 3 2) ready = true ∧
    Executes (.xor 3 1 2) ready = true ∧
    Executes (.xorCond .eq 0 3 1 2) ready = true ∧
    Executes (.xorShort 3 1) ready = true ∧
    Executes (.not 3 1) ready = true ∧
    Executes (.notCond .eq 0 3 1) ready = true ∧
    Executes (.notShort 3 1) ready = true ∧
    Executes (.mov 3 1) ready = true ∧
    Executes (.movCond .eq 0 3 1) ready = true ∧
    Executes (.movShort 3 1) ready = true := by
  decide

theorem test_witness_LoadConstants :
    Executes (.lli 31 0xFFFF) ready = true ∧
    Executes (.lui 0 0x8000) ready = true := by
  decide

theorem test_witness_BytesAndHalves :
    Executes (.conb 3 1 2) ready = true ∧
    Executes (.conbCond .eq 0 3 1 2) ready = true ∧
    Executes (.conbShort 3 1) ready = true ∧
    Executes (.conh 3 1 2) ready = true ∧
    Executes (.conhCond .eq 0 3 1 2) ready = true ∧
    Executes (.conhShort 3 1) ready = true ∧
    Executes (.exb 3 1 1) ready = true ∧
    Executes (.exbCond .eq 0 3 1 1) ready = true ∧
    Executes (.exbShort 3 1 1) ready = true ∧
    Executes (.exh 3 1 1) ready = true ∧
    Executes (.exhCond .eq 0 3 1 1) ready = true ∧
    Executes (.exhShort 3 1 1) ready = true := by
  decide

theorem test_witness_SignExtension :
    Executes (.sexti 3 1 2) ready = true ∧
    Executes (.sextiCond .eq 0 3 1 2) ready = true ∧
    Executes (.sextiShort 3 2) ready = true ∧
    Executes (.sext 3 1 2) ready = true ∧
    Executes (.sextCond .eq 0 3 1 2) ready = true ∧
    Executes (.sextShort 3 1) ready = true := by
  decide

/-- The whole register: length 32, position 0. -/
theorem test_witness_BitFields :
    Executes (.exbfi 2 1 0x400) ready = true ∧
    Executes (.exbf 3 1 2) ready = true ∧
    Executes (.exbfCond .eq 0 3 1 2) ready = true ∧
    Executes (.exbfShort 3 1) ready = true ∧
    (0x400#11).toNat % 32 + (0x400#11).toNat / 32 ≤ 32 ∧
    (0xFFFFFC00#32).toNat % 32 + (0xFFFFFC00#32).toNat / 32 % 64 ≤ 32 := by
  decide

/-- One bit too far: length 32, position 1. -/
theorem test_witness_BitFieldOverrun :
    Executes (.exbfi 2 1 0x401) ready = true ∧
    Executes (.exbf 3 1 2) ready = true ∧
    Executes (.exbfCond .eq 0 3 1 2) ready = true ∧
    Executes (.exbfShort 3 1) ready = true ∧
    ¬ (0x401#11).toNat % 32 + (0x401#11).toNat / 32 ≤ 32 ∧
    ¬ (0x401#32).toNat % 32 + (0x401#32).toNat / 32 % 64 ≤ 32 := by
  decide

theorem test_witness_RegisterShifts :
    Executes (.sll 3 1 2) ready = true ∧
    Executes (.sllCond .eq 0 3 1 2) ready = true ∧
    Executes (.sllShort 3 1) ready = true ∧
    Executes (.srl 3 1 2) ready = true ∧
    Executes (.srlCond .eq 0 3 1 2) ready = true ∧
    Executes (.srlShort 3 1) ready = true ∧
    Executes (.sra 3 1 2) ready = true ∧
    Executes (.sraCond .eq 0 3 1 2) ready = true ∧
    Executes (.sraShort 3 1) ready = true := by
  decide

/-- The last amount that shifts and the first that is refused. -/
theorem test_witness_ImmediateShifts :
    Executes (.slli 3 1 32) ready = true ∧
    Executes (.slliCond .eq 0 3 1 32) ready = true ∧
    Executes (.slliShort 3 32) ready = true ∧
    Executes (.srli 3 1 32) ready = true ∧
    Executes (.srliCond .eq 0 3 1 32) ready = true ∧
    Executes (.srliShort 3 32) ready = true ∧
    Executes (.srai 3 1 32) ready = true ∧
    Executes (.sraiCond .eq 0 3 1 32) ready = true ∧
    Executes (.sraiShort 3 32) ready = true ∧
    Executes (.slli 3 1 33) ready = true ∧
    Executes (.srliCond .eq 0 3 1 33) ready = true ∧
    Executes (.sraiShort 3 63) ready = true ∧
    (32#6).toNat ≤ 32 ∧ 32 < (33#6).toNat := by
  decide

theorem test_witness_Multiply :
    Executes (.muli 3 1 2) ready = true ∧
    Executes (.muliCond .eq 0 3 1 2) ready = true ∧
    Executes (.muliShort 3 2) ready = true ∧
    Executes (.muls 3 1 2) ready = true ∧
    Executes (.mulsCond .eq 0 3 1 2) ready = true ∧
    Executes (.mulsShort 3 1) ready = true ∧
    Executes (.mulu 3 1 2) ready = true ∧
    Executes (.muluCond .eq 0 3 1 2) ready = true ∧
    Executes (.muluShort 3 1) ready = true ∧
    Executes (.mulus 3 1 2) ready = true ∧
    Executes (.mulusCond .eq 0 3 1 2) ready = true ∧
    Executes (.mulusShort 3 1) ready = true := by
  decide

theorem test_witness_MultiplyHalves :
    Executes (.muls16 3 1 2) ready = true ∧
    Executes (.muls16Cond .eq 0 3 1 2) ready = true ∧
    Executes (.muls16Short 3 1) ready = true ∧
    Executes (.mulu16 3 1 2) ready = true ∧
    Executes (.mulu16Cond .eq 0 3 1 2) ready = true ∧
    Executes (.mulu16Short 3 1) ready = true ∧
    Executes (.mulus16 3 1 2) ready = true ∧
    Executes (.mulus16Cond .eq 0 3 1 2) ready = true ∧
    Executes (.mulus16Short 3 1) ready = true := by
  decide

/-- With a latch and without. -/
theorem test_witness_MultiplyHigh :
    Executes (.mulhi 4) ready = true ∧
    Executes (.mulhiCond .eq 0 4) ready = true ∧
    Executes (.mulhiShort 4) ready = true ∧
    Executes (.mulhi 4) ready = true ∧
    { ready with mulhi := some 5#32 }.mulhi = some 5#32 ∧ ready.mulhi = none ∧
    Executes (.mulhi 4) { ready with mulhi := some 5#32 } = true := by
  decide

theorem test_witness_LowWordsAgree :
    let s := regs [(1, 0xFFFFFFFF), (2, 0xFFFFFFFE)]
    (∃ t, exec (.muls 3 1 2) s = .next t ∧ (t.reg 3 == 2#32) = true) ∧
    (∃ u, exec (.mulu 3 1 2) s = .next u ∧ (u.reg 3 == 2#32) = true) ∧
    ∃ v, exec (.mulus 3 1 2) s = .next v ∧ (v.reg 3 == 2#32) = true :=
  ⟨of_gives (by decide), of_gives (by decide), of_gives (by decide)⟩

/-- Flags that take a branch, that do not, and that no ordered condition accepts. -/
theorem test_witness_Branches :
    Executes (.bc 7 (-2097152)) ready = true ∧
    Executes (.bcShort (-512)) ready = true ∧
    Executes (.begt 7 (-2097152)) ready = true ∧
    Executes (.begtShort (-512)) ready = true ∧
    Executes (.belt 7 (-2097152)) ready = true ∧
    Executes (.beltShort (-512)) ready = true ∧
    Executes (.beq 7 (-2097152)) ready = true ∧
    Executes (.beqShort (-512)) ready = true ∧
    Executes (.bgt 7 (-2097152)) ready = true ∧
    Executes (.bgtShort (-512)) ready = true ∧
    Executes (.blt 7 (-2097152)) ready = true ∧
    Executes (.bltShort (-512)) ready = true ∧
    Executes (.bne 7 (-2097152)) ready = true ∧
    Executes (.bneShort (-512)) ready = true ∧
    condHolds .eq (ready.creg 0) = some true ∧ condHolds .ne (ready.creg 0) = some false ∧
    condHolds .lt ((flagged 0 true true false State.reset).creg 0) = none := by
  decide

theorem test_witness_Jumps :
    Executes (.jmp (-16777216)) ready = true ∧
    Executes (.jmpShort 511) ready = true ∧
    Executes (.jmpr 31) ready = true ∧
    Executes (.jmprCond .eq 0 31) ready = true ∧
    Executes (.jmprShort 7) ready = true := by
  decide

theorem test_witness_Calls :
    Executes (.jal (-16777216)) ready = true ∧
    Executes (.jalShort 511) ready = true ∧
    Executes (.jalr 31) ready = true ∧
    Executes (.jalrCond .eq 0 31) ready = true ∧
    Executes (.jalrShort 7) ready = true := by
  decide

/-- The last word of the address space, from every offset below it. -/
theorem test_witness_Load :
    let s := stored [(0xFFFFFFFC, 0x0F0E0D0C)] ready
    Executes (.ld 7 6 (-1)) s = true ∧
    Executes (.ldCond .eq 0 7 6 (-1)) s = true ∧
    Executes (.ldShort 7 6 (-1)) s = true ∧
    wordAddress s 6 ((-1#15).signExtend 32) = 0xFFFFFFFC ∧ (∃ r ∈ s.platform.regions, r.base ≤ 0xFFFFFFFC ∧ 0xFFFFFFFC + 4 ≤ r.base + r.size) ∧
    readByte s.dmem 0xFFFFFFFC = some 0x0F#8 ∧ readByte s.dmem 0xFFFFFFFD = some 0x0E#8 ∧
    readByte s.dmem 0xFFFFFFFE = some 0x0D#8 ∧ readByte s.dmem 0xFFFFFFFF = some 0x0C#8 := by
  decide

/-- Outside the program text; and within it, the memories being separate. -/
theorem test_witness_Store :
    Executes (.st 7 6 (-1)) ready = true ∧
    Executes (.stCond .eq 0 7 6 (-1)) ready = true ∧
    Executes (.stShort 7 6 (-1)) ready = true ∧
    HoldsMemory ready (wordAddress ready 6 ((-1#15).signExtend 32)) ∧
    ¬ IsProgramText (ready.withFetchWord 32 0) 0xFFFFFFFC ∧ IsProgramText (ready.withFetchWord 32 0) 0x100 ∧
    { ready.platform with unified := .separate }.unified = .separate := by
  unfold HoldsMemory IsProgramText
  decide

/-- Past the end of a region; the last of the four bytes missing; and the program text. -/
theorem test_witness_DataStops :
    let s := { ready with platform := { ready.platform with regions := [⟨0x2000, 0x1000⟩] } }
    Executes (.ld 7 6 (-1)) s = true ∧
    Executes (.ldCond .eq 0 7 6 (-1)) s = true ∧
    Executes (.ldShort 7 6 (-1)) s = true ∧
    Executes (.st 7 6 (-1)) s = true ∧
    Executes (.stCond .eq 0 7 6 (-1)) s = true ∧
    Executes (.stShort 7 6 (-1)) s = true ∧
    ¬ HoldsMemory s 0x3000 ∧ HoldsMemory s 0x2FFC ∧
    readByte (writeByte (writeByte (writeByte [] 0x2FFC 1) 0x2FFD 2) 0x2FFE 3) (0x2FFC + 3) = none ∧
    (HoldsMemory ready 0x100 ∧ IsProgramText (ready.withFetchWord 32 0) 0x100 ∧ ready.platform.unified ≠ .separate) := by
  unfold HoldsMemory IsProgramText
  decide

theorem test_witness_LoadAfterStore :
    let s := regs [(6, 0x3000), (7, 0xDEADBEEF)]
    s.pend = none ∧ wordAddress s 6 ((8#15).signExtend 32) = wordAddress s 6 ((11#15).signExtend 32) ∧
      ∃ t, exec (.st 7 6 8) s = .next t ∧ (t.dmem != []) = true :=
  ⟨rfl, by decide, of_gives (by decide)⟩

theorem test_witness_SelectSets :
    Executes (.chrs 0) ready = true ∧
    Executes (.chrsShort 3) ready = true ∧
    ready.psr.um = .super := by
  decide

theorem test_witness_TrapsAndViolations :
    Executes (.trap) user = true ∧
    Executes (.trapShort) user = true ∧
    Executes (.chrs 3) user = true ∧
    Executes (.chrsShort 0) user = true ∧
    user.pend = none ∧ user.psr.um = .user := by
  decide

theorem test_witness_InterruptEnable :
    Executes (.di) ready = true ∧
    Executes (.diShort) ready = true ∧
    Executes (.ei) ready = true ∧
    Executes (.eiShort) ready = true ∧
    ready.psr.um = .super ∧ user.psr.um = .user ∧ Executes .ei user = true := by
  decide

theorem test_witness_SaveAndRestoreFlags :
    Executes (.scon 31) ready = true ∧
    Executes (.sconShort 7) ready = true ∧
    Executes (.rcon 31) ready = true ∧
    Executes (.rconShort 7) ready = true := by
  decide

/-- The flags saved, all cleared, and restored. -/
theorem test_witness_SaveThenRestore :
    let s := flagged 7 true false true ready
    s.pend = none ∧ s.psr.rsrd = s.psr.rswr ∧
      ∃ t, exec (.scon 6) s = .next t ∧
        (readReg (flagged 7 false false false t) 6 == readReg t 6 &&
          gives (exec (.rcon 6) (flagged 7 false false false t)) (fun v => v.creg 7 == s.creg 7)) = true :=
  ⟨rfl, rfl, of_gives (by decide)⟩

theorem test_witness_SystemCall :
    Executes (.scall) ready = true ∧
    Executes (.scallCond .eq 0) ready = true ∧
    Executes (.scallShort) ready = true := by
  decide

/-- In both modes, with an entry on the stack and without. -/
theorem test_witness_Returns :
    Executes (.retu) ready = true ∧
    Executes (.retuShort) ready = true ∧
    Executes (.reti) ready = true ∧
    Executes (.retiShort) ready = true ∧
    ready.psr.um = .super ∧ user.psr.um = .user ∧ Executes .retu user = true ∧ ready.hwstack = [] ∧
    { ready with hwstack := [⟨0x120#32, user.psr⟩] }.hwstack = ⟨0x120#32, user.psr⟩ :: [] := by
  decide

theorem test_witness_SwitchMode :
    Executes (.swm 16) ready = true ∧
    Executes (.swmShort 32) ready = true ∧
    32 ≤ (32#6).toNat ∧ ¬ 32 ≤ (31#6).toNat := by
  decide

theorem test_witness_SystemCallReturns : user.psr.um = .user ∧ user.psr.Legal ∧ user.pend = none :=
  ⟨rfl, fun _ => ⟨rfl, rfl⟩, rfl⟩

theorem test_witness_InterruptReturns :
    { user with intpend := [2, 7] }.pend = none ∧
      ∃ t, enterInterrupt 7 { user with intpend := [2, 7] } = .next t ∧ (t.intpend == [2]) = true :=
  ⟨rfl, of_gives (by simp [gives, enterInterrupt, Config.hwStackDepth, user, State.reset])⟩

/-- Attached, and not attached. -/
theorem test_witness_CoprocessorTransfers :
    Executes (.cop 3 0xFFFFFF) ready = true ∧
    Executes (.movdtc 0 31 2) ready = true ∧
    Executes (.movdtcCond .eq 0 0 31 2) ready = true ∧
    Executes (.movdtcShort 0 31 2) ready = true ∧
    Executes (.movctc 1 9) ready = true ∧
    Executes (.movctcCond .eq 0 1 9) ready = true ∧
    Executes (.movctcShort 1 7) ready = true ∧
    Executes (.movdfc 1 4 7) ready = true ∧
    Executes (.movdfcCond .eq 0 1 4 7) ready = true ∧
    Executes (.movdfcShort 1 4 7) ready = true ∧
    Executes (.movcfc 3 1) ready = true ∧
    Executes (.movcfcCond .eq 0 3 1) ready = true ∧
    Executes (.movcfcShort 3 1) ready = true ∧
    ready.attached 3 = true ∧
    { ready with platform := { ready.platform with attached := Vector.replicate 4 false } }.attached 3 = false := by
  decide

end Sys2Proof.Tests
end

section
/-! PROOFS. The worked encodings of R113: a row's word of either width is read by that mode's decoder, and each word is
then evaluated on its own. -/

namespace Sys2Proof

/-- A row's word of 32 bits means what the decoder of 32-bit mode answers (R90): its bytes make up the word again. -/
theorem decodeTableWord_of_decode32 {w : Nat} {i : Instr} (h : decode32 (BitVec.ofNat 32 w) = .ok i) :
    decodeTableWord 32 w = some i := by
  have hbytes : decode (modeOfBits 32) (bytesOfBits 32 w) = .ok i := (decode_bytesOfWord _).trans h
  simp only [decodeTableWord, hbytes]

/-- A row's word of 16 bits means what the decoder of 16-bit mode answers (R90): its bytes make up the halfword again. -/
theorem decodeTableWord_of_decode16 {w : Nat} {i : Instr} (h : decode16 (BitVec.ofNat 16 w) = .ok i) :
    decodeTableWord 16 w = some i := by
  have hbytes : decode (modeOfBits 16) (bytesOfBits 16 w) = .ok i := (decode_bytesOfHalf _).trans h
  simp only [decodeTableWord, hbytes]

/-- Settles O3, row by row: the opcode of each word selects the format (R102, R103) named beside it, whose fields are the
row's operands. -/
theorem workedEncodings : Obligations.WorkedEncodings := by
  unfold Obligations.WorkedEncodings
  refine ⟨?add, ?addCond, ?addi, ?addiCond, ?addShort, ?addiShort, ?bne, ?cmpi, ?st, ?cop, ?swm, ?swmShort⟩
  case add => exact decodeTableWord_of_decode32 (show formatR3 .add .addCond _ = _ by decide)
  case addCond => exact decodeTableWord_of_decode32 (show formatR3 .add .addCond _ = _ by decide)
  case addi => exact decodeTableWord_of_decode32 (show formatI .addi .addiCond _ = _ by decide)
  case addiCond => exact decodeTableWord_of_decode32 (show formatI .addi .addiCond _ = _ by decide)
  case addShort => exact decodeTableWord_of_decode16 (show format_r2 .addShort _ = _ by decide)
  case addiShort => exact decodeTableWord_of_decode16 (show format_i7 .addiShort _ = _ by decide)
  case bne => exact decodeTableWord_of_decode32 (show formatB .bne _ = _ by decide)
  case cmpi => exact decodeTableWord_of_decode32 (show formatCMPI .cmpi _ = _ by decide)
  case st => exact decodeTableWord_of_decode32 (show formatST .st .stCond _ = _ by decide)
  case cop => exact decodeTableWord_of_decode32 (show formatCOP .cop _ = _ by decide)
  case swm => exact decodeTableWord_of_decode32 (show formatN6 .swm _ = _ by decide)
  case swmShort => exact decodeTableWord_of_decode16 (show format_n6 .swmShort _ = _ by decide)

end Sys2Proof
end

section
/-! PROOFS. From the rule of a plain form to what the instruction computes: the instruction runs its rule wherever it gets to
it (R231, R232), and a rule that writes one register writes the value it computes from what the sources held before. -/

namespace Sys2Proof.Machine

/-- Where `i` gets to its rule, that rule is `body`: the state `body` completes with is what the instruction leaves. -/
def RunsRule (i : Instr) (body : State → Effect) : Prop :=
  ∀ s u, Executes i s → body s.opened = .done u → exec i s = .next (s.close u)

/-- An unconditional form without a slot runs its rule. -/
theorem runsRule_plain {i : Instr} {body : State → Effect} (hr : i.slotRole = .plain)
    (hx : ∀ s, exec i s = plain body s) : RunsRule i body := by
  intro s u he hb
  obtain ⟨hc, -⟩ := executes_iff.1 he
  rw [hr] at hc
  exact (hx s).trans (runInstr_done hc hb)

/-- A conditional form without a slot runs its rule, `Executes` being where its condition holds (R232). -/
theorem runsRule_plainIf {i : Instr} {cc : Cond} {k : CReg} {body : State → Effect} (hr : i.slotRole = .plain)
    (hi : i.condition? = some (cc, k)) (hx : ∀ s, exec i s = plainIf cc k body s) : RunsRule i body := by
  intro s u he hb
  obtain ⟨hc, hh⟩ := executes_iff.1 he
  rw [hr] at hc
  exact (hx s).trans (plainIf_done hc (hh cc k hi) hb)

section OneRegister
variable {i : Instr} {d a b : Reg} {P : State → Word → Prop}

/-- A rule that only writes `v` to register `d`. -/
theorem computes_setReg {body : State → Effect} {v : State → Word} (h : RunsRule i body)
    (hb : ∀ s : State, body s.opened = .done (s.opened.setReg d (v s))) (hP : ∀ s, P s (v s)) :
    Computes i d P :=
  fun s he => ⟨_, v s, h s _ he (hb s), writesRegOnly_setReg s d (v s), hP s⟩

/-- A rule of one source register. -/
theorem computes_compute1 {f : Word → Word} (h : RunsRule i (compute1 f d a)) (hP : ∀ s, P s (f (readReg s a))) :
    Computes i d P :=
  computes_setReg h (fun s => by simp only [compute1, reg_eq_readReg, readReg_opened]) hP

/-- A rule of two source registers. -/
theorem computes_compute2 {f : Word → Word → Word} (h : RunsRule i (compute2 f d a b))
    (hP : ∀ s, P s (f (readReg s a) (readReg s b))) : Computes i d P :=
  computes_setReg h (fun s => by simp only [compute2, reg_eq_readReg, readReg_opened]) hP

end OneRegister

end Sys2Proof.Machine
end

section
/-! PROOFS. The bitwise operations and `mov` (spec/41_logical_move.md): each rule bit for bit, for any instruction that runs
it; then the forms of each mnemonic, which all run the one rule. -/

namespace Sys2Proof.Machine

section Rules
variable {i : Instr} {d a b : Reg}

/-- The rule of `and` (R160). -/
theorem computes_andRule (h : RunsRule i (andRule d a b)) : Computes i d fun s v =>
    ∀ n, n < 32 → v.getLsbD n = ((readReg s a).getLsbD n && (readReg s b).getLsbD n) :=
  computes_compute2 h fun _ _ _ => BitVec.getLsbD_and

/-- The rule of `andi` (R161). -/
theorem computes_andiRule {m : Nat} {imm : BitVec m} (h : RunsRule i (andiRule d a (zextImm imm))) :
    Computes i d fun s v => ∀ n, n < 32 → v.getLsbD n = ((readReg s a).getLsbD n && imm.toNat.testBit n) :=
  computes_compute1 h fun _ _ hn => by rw [BitVec.getLsbD_and, zextImm_getLsbD imm hn]

/-- The rule of `or` (R162). -/
theorem computes_orRule (h : RunsRule i (orRule d a b)) : Computes i d fun s v =>
    ∀ n, n < 32 → v.getLsbD n = ((readReg s a).getLsbD n || (readReg s b).getLsbD n) :=
  computes_compute2 h fun _ _ _ => BitVec.getLsbD_or

/-- The rule of `ori` (R163). -/
theorem computes_oriRule {m : Nat} {imm : BitVec m} (h : RunsRule i (oriRule d a (zextImm imm))) :
    Computes i d fun s v => ∀ n, n < 32 → v.getLsbD n = ((readReg s a).getLsbD n || imm.toNat.testBit n) :=
  computes_compute1 h fun _ _ hn => by rw [BitVec.getLsbD_or, zextImm_getLsbD imm hn]

/-- The rule of `xor` (R164). -/
theorem computes_xorRule (h : RunsRule i (xorRule d a b)) : Computes i d fun s v =>
    ∀ n, n < 32 → v.getLsbD n = ((readReg s a).getLsbD n ^^ (readReg s b).getLsbD n) :=
  computes_compute2 h fun _ _ _ => BitVec.getLsbD_xor

/-- The rule of `not` (R165). The bound counts here: beyond bit 31 the register and its complement both read as zero. -/
theorem computes_notRule (h : RunsRule i (notRule d a)) : Computes i d fun s v =>
    ∀ n, n < 32 → v.getLsbD n = !(readReg s a).getLsbD n :=
  computes_compute1 h fun _ _ hn => by simp [hn]

/-- The rule of `mov` (R166). -/
theorem computes_movRule (h : RunsRule i (movRule d a)) : Computes i d fun s v => v = readReg s a :=
  computes_compute1 h fun _ => rfl

end Rules

/-- Settles O30, mnemonic by mnemonic: the three forms run the same rule, the 16-bit one on the registers its short operands
name (R23) and the immediate ones on a zero-extended word. -/
theorem logic : Obligations.Logic := by
  unfold Obligations.Logic
  refine ⟨?and, ?andi, ?or, ?ori, ?xor, ?not, ?mov⟩
  case and => exact ⟨
    fun _ _ _ => computes_andRule (runsRule_plain rfl fun _ => rfl),
    fun _ _ _ _ _ => computes_andRule (runsRule_plainIf rfl rfl fun _ => rfl),
    fun _ _ => computes_andRule (runsRule_plain rfl fun _ => rfl)⟩
  case andi => exact ⟨
    fun _ _ _ => computes_andiRule (runsRule_plain rfl fun _ => rfl),
    fun _ _ _ _ _ => computes_andiRule (runsRule_plainIf rfl rfl fun _ => rfl),
    fun _ _ => computes_andiRule (runsRule_plain rfl fun _ => rfl)⟩
  case or => exact ⟨
    fun _ _ _ => computes_orRule (runsRule_plain rfl fun _ => rfl),
    fun _ _ _ _ _ => computes_orRule (runsRule_plainIf rfl rfl fun _ => rfl),
    fun _ _ => computes_orRule (runsRule_plain rfl fun _ => rfl)⟩
  case ori => exact ⟨
    fun _ _ _ => computes_oriRule (runsRule_plain rfl fun _ => rfl),
    fun _ _ _ _ _ => computes_oriRule (runsRule_plainIf rfl rfl fun _ => rfl),
    fun _ _ => computes_oriRule (runsRule_plain rfl fun _ => rfl)⟩
  case xor => exact ⟨
    fun _ _ _ => computes_xorRule (runsRule_plain rfl fun _ => rfl),
    fun _ _ _ _ _ => computes_xorRule (runsRule_plainIf rfl rfl fun _ => rfl),
    fun _ _ => computes_xorRule (runsRule_plain rfl fun _ => rfl)⟩
  case not => exact ⟨
    fun _ _ => computes_notRule (runsRule_plain rfl fun _ => rfl),
    fun _ _ _ _ => computes_notRule (runsRule_plainIf rfl rfl fun _ => rfl),
    fun _ _ => computes_notRule (runsRule_plain rfl fun _ => rfl)⟩
  case mov => exact ⟨
    fun _ _ => computes_movRule (runsRule_plain rfl fun _ => rfl),
    fun _ _ _ _ => computes_movRule (runsRule_plainIf rfl rfl fun _ => rfl),
    fun _ _ => computes_movRule (runsRule_plain rfl fun _ => rfl)⟩

end Sys2Proof.Machine
end

section
/-! PROOFS. Bytes, halves and sign extensions (spec/42_bitfield_shift.md): each rule by what its operand function computes,
for any instruction that runs it; then the forms of each mnemonic, which all run the one rule. -/

namespace Sys2Proof.Machine

section Rules
variable {i : Instr} {d a b : Reg}

/-- The rule of `conb` (R181). -/
theorem computes_conbRule (h : RunsRule i (conbRule d a b)) : Computes i d fun s v =>
    v.toNat = (readReg s a).toNat % 2 ^ 8 * 2 ^ 8 + (readReg s b).toNat % 2 ^ 8 :=
  computes_compute2 h fun _ => concatBytes_toNat _ _

/-- The rule of `conh` (R182). -/
theorem computes_conhRule (h : RunsRule i (conhRule d a b)) : Computes i d fun s v =>
    v.toNat = (readReg s a).toNat % 2 ^ 16 * 2 ^ 16 + (readReg s b).toNat % 2 ^ 16 :=
  computes_compute2 h fun _ => concatHalves_toNat _ _

/-- The rule of `exb` (R183). -/
theorem computes_exbRule {imm : BitVec 2} (h : RunsRule i (exbRule d a imm)) : Computes i d fun s v =>
    v.toNat = (readReg s a).toNat / 2 ^ (8 * imm.toNat) % 2 ^ 8 :=
  computes_compute1 h fun _ => extractByte_toNat _ imm

/-- The rule of `exh` (R184). -/
theorem computes_exhRule {imm : BitVec 1} (h : RunsRule i (exhRule d a imm)) : Computes i d fun s v =>
    v.toNat = (readReg s a).toNat / 2 ^ (16 * imm.toNat) % 2 ^ 16 :=
  computes_compute1 h fun _ => extractHalf_toNat _ imm

/-- The rule of `sexti` (R187). -/
theorem computes_sextiRule {p : BitVec 5} (h : RunsRule i (sextiRule d a p)) : Computes i d fun s v =>
    ∀ n, n < 32 → v.getLsbD n = (readReg s a).getLsbD (min n p.toNat) :=
  computes_compute1 h fun _ _ hn => signExt_getLsbD _ p hn

/-- Bits 4:0 of a register as a number: all that `sext` takes from its position register (R188). -/
theorem fieldAt_low5_toNat (v : Word) : (fieldAt v 0 5).toNat = v.toNat % 32 := by
  simp only [fieldAt_toNat, Nat.pow_zero, Nat.div_one, Nat.reducePow]

/-- The rule of `sext` (R188). -/
theorem computes_sextRule (h : RunsRule i (sextRule d a b)) : Computes i d fun s v =>
    ∀ n, n < 32 → v.getLsbD n = (readReg s a).getLsbD (min n ((readReg s b).toNat % 32)) :=
  computes_compute2 h fun _ _ hn => by rw [signExt_getLsbD _ _ hn, fieldAt_low5_toNat]

end Rules

/-- Settles O32, mnemonic by mnemonic: the three forms run the same rule, the 16-bit one on the registers its short operands
name (R23), where `conb` and `conh` read `dr` as their second source. -/
theorem bytesAndHalves : Obligations.BytesAndHalves := by
  unfold Obligations.BytesAndHalves
  refine ⟨?conb, ?conh, ?exb, ?exh⟩
  case conb => exact ⟨
    fun _ _ _ => computes_conbRule (runsRule_plain rfl fun _ => rfl),
    fun _ _ _ _ _ => computes_conbRule (runsRule_plainIf rfl rfl fun _ => rfl),
    fun _ _ => computes_conbRule (runsRule_plain rfl fun _ => rfl)⟩
  case conh => exact ⟨
    fun _ _ _ => computes_conhRule (runsRule_plain rfl fun _ => rfl),
    fun _ _ _ _ _ => computes_conhRule (runsRule_plainIf rfl rfl fun _ => rfl),
    fun _ _ => computes_conhRule (runsRule_plain rfl fun _ => rfl)⟩
  case exb => exact ⟨
    fun _ _ _ => computes_exbRule (runsRule_plain rfl fun _ => rfl),
    fun _ _ _ _ _ => computes_exbRule (runsRule_plainIf rfl rfl fun _ => rfl),
    fun _ _ _ => computes_exbRule (runsRule_plain rfl fun _ => rfl)⟩
  case exh => exact ⟨
    fun _ _ _ => computes_exhRule (runsRule_plain rfl fun _ => rfl),
    fun _ _ _ _ _ => computes_exhRule (runsRule_plainIf rfl rfl fun _ => rfl),
    fun _ _ _ => computes_exhRule (runsRule_plain rfl fun _ => rfl)⟩

/-- Settles O33, mnemonic by mnemonic: the three forms run the same rule, the 16-bit `sexti` on one register and the 16-bit
`sext` with `dr` as its position register. -/
theorem signExtension : Obligations.SignExtension := by
  unfold Obligations.SignExtension
  refine ⟨?sexti, ?sext⟩
  case sexti => exact ⟨
    fun _ _ _ => computes_sextiRule (runsRule_plain rfl fun _ => rfl),
    fun _ _ _ _ _ => computes_sextiRule (runsRule_plainIf rfl rfl fun _ => rfl),
    fun _ _ => computes_sextiRule (runsRule_plain rfl fun _ => rfl)⟩
  case sext => exact ⟨
    fun _ _ _ => computes_sextRule (runsRule_plain rfl fun _ => rfl),
    fun _ _ _ _ _ => computes_sextRule (runsRule_plainIf rfl rfl fun _ => rfl),
    fun _ _ => computes_sextRule (runsRule_plain rfl fun _ => rfl)⟩

end Sys2Proof.Machine
end

section
/-! PROOFS. The products of halfwords (spec/43_multiply.md): each of the three products fits in a word, so a rule that writes
the word of it writes the product itself; then the forms of each mnemonic, which all run the one rule. -/

namespace Sys2Proof.Machine

/-- The low halfword as an unsigned number. -/
theorem lowHalf_toNat (v : Word) : (lowHalf v).toNat = v.toNat % 2 ^ 16 := by
  simp only [lowHalf, fieldAt_toNat, Nat.pow_zero, Nat.div_one]

/-- The low halfword as a signed number: two's complement of its 16 bits (R215). -/
theorem lowHalf_toInt (v : Word) : (lowHalf v).toInt =
    if v.toNat % 2 ^ 16 < 2 ^ 15 then (v.toNat : Int) % 2 ^ 16 else (v.toNat : Int) % 2 ^ 16 - 2 ^ 16 := by
  rw [BitVec.toInt_eq_toNat_cond, lowHalf_toNat]
  split <;> split <;> omega

/-- A signed halfword is at most 2^15 away from zero. -/
theorem abs_toInt_half_le (h : Half) : |h.toInt| ≤ 2 ^ 15 :=
  abs_le.2 ⟨h.le_toInt, h.toInt_lt.le⟩

/-- An unsigned halfword is below 2^16. -/
theorem abs_toNat_half_le (h : Half) : |(h.toNat : Int)| ≤ 2 ^ 16 - 1 := by
  have := h.isLt
  rw [Nat.abs_cast]
  omega

/-- The product of a signed halfword with a halfword of either reading fits in a signed word: even (2^16 - 1) * 2^15 stays
below 2^31. -/
theorem fitsSigned_mul_of_halves {x y : Int} (hx : |x| ≤ 2 ^ 16 - 1) (hy : |y| ≤ 2 ^ 15) : FitsSigned (x * y) := by
  have hxy : |x * y| ≤ (2 ^ 16 - 1) * 2 ^ 15 := calc
    |x * y| = |x| * |y| := abs_mul x y
    _ ≤ (2 ^ 16 - 1) * 2 ^ 15 := mul_le_mul hx hy (abs_nonneg y) (by norm_num)
  obtain ⟨hl, hu⟩ := abs_le.1 hxy
  constructor <;> omega

/-- The word of an unsigned product that fits is the product. -/
theorem toNat_ofInt_mul_halves (a b : Half) : (BitVec.ofInt 32 (a.toNat * b.toNat : Int)).toNat = a.toNat * b.toNat := by
  rw [← Nat.cast_mul, BitVec.ofInt_natCast, BitVec.toNat_ofNat]
  exact Nat.mod_eq_of_lt (show a.toNat * b.toNat < 2 ^ 16 * 2 ^ 16 from Nat.mul_lt_mul'' a.isLt b.isLt)

section Rules
variable {i : Instr} {d a b : Reg}

/-- The rule of `muls_16` (R215). -/
theorem computes_muls16Rule (h : RunsRule i (muls16Rule d a b)) : Computes i d fun s v =>
    v.toInt = (lowHalf (readReg s a)).toInt * (lowHalf (readReg s b)).toInt :=
  computes_setReg h (fun s => by simp only [muls16Rule, writeProduct16, reg_eq_readReg, readReg_opened]) fun _ =>
    toInt_ofInt_of_fits (fitsSigned_mul_of_halves ((abs_toInt_half_le _).trans (by norm_num)) (abs_toInt_half_le _))

/-- The rule of `mulu_16` (R216). -/
theorem computes_mulu16Rule (h : RunsRule i (mulu16Rule d a b)) : Computes i d fun s v =>
    v.toNat = (lowHalf (readReg s a)).toNat * (lowHalf (readReg s b)).toNat :=
  computes_setReg h (fun s => by simp only [mulu16Rule, writeProduct16, reg_eq_readReg, readReg_opened]) fun _ =>
    toNat_ofInt_mul_halves _ _

/-- The rule of `mulus_16` (R217). -/
theorem computes_mulus16Rule (h : RunsRule i (mulus16Rule d a b)) : Computes i d fun s v =>
    v.toInt = (lowHalf (readReg s a)).toNat * (lowHalf (readReg s b)).toInt :=
  computes_setReg h (fun s => by simp only [mulus16Rule, writeProduct16, reg_eq_readReg, readReg_opened]) fun _ =>
    toInt_ofInt_of_fits (fitsSigned_mul_of_halves (abs_toNat_half_le _) (abs_toInt_half_le _))

end Rules

/-- Settles O39, mnemonic by mnemonic: the three forms run the same rule, the 16-bit one on the registers its short operands
name (R23) with `dr` as its second source. The statement is first read in terms of `lowHalf`, the signed reading before the
unsigned one, which occurs inside it. -/
theorem multiplyHalves : Obligations.MultiplyHalves := by
  unfold Obligations.MultiplyHalves
  simp only [← lowHalf_toInt]
  simp only [← lowHalf_toNat]
  refine ⟨?muls16, ?mulu16, ?mulus16⟩
  case muls16 => exact ⟨
    fun _ _ _ => computes_muls16Rule (runsRule_plain rfl fun _ => rfl),
    fun _ _ _ _ _ => computes_muls16Rule (runsRule_plainIf rfl rfl fun _ => rfl),
    fun _ _ => computes_muls16Rule (runsRule_plain rfl fun _ => rfl)⟩
  case mulu16 => exact ⟨
    fun _ _ _ => computes_mulu16Rule (runsRule_plain rfl fun _ => rfl),
    fun _ _ _ _ _ => computes_mulu16Rule (runsRule_plainIf rfl rfl fun _ => rfl),
    fun _ _ => computes_mulu16Rule (runsRule_plain rfl fun _ => rfl)⟩
  case mulus16 => exact ⟨
    fun _ _ _ => computes_mulus16Rule (runsRule_plain rfl fun _ => rfl),
    fun _ _ _ _ _ => computes_mulus16Rule (runsRule_plainIf rfl rfl fun _ => rfl),
    fun _ _ => computes_mulus16Rule (runsRule_plain rfl fun _ => rfl)⟩

end Sys2Proof.Machine
end

section
/-! PROOFS. `nop`, `jmp` and `jmpr` (spec/44_control_transfer.md): `nop` may stand in every slot, so it always runs; a
slot-bearing form runs only outside a slot, where a rule that leaves a transfer pending leaves it to the next instruction. -/

namespace Sys2Proof.Machine

/-- No slot refuses a `nop`, not even one that must hold a `nop` (R234 b, c). -/
theorem slotCheck_filler (o : Option Transfer) : slotCheck .filler o = none := by
  cases o <;> rfl

/-- The rule of `nop` (R247), for either form. -/
theorem changesNothing_nopRule {i : Instr} (hx : ∀ s, exec i s = runInstr .filler nopRule s) (s : State) :
    ∃ t, exec i s = .next t ∧ ChangesNothing s t :=
  ⟨s.close s.opened, (hx s).trans (runInstr_done (slotCheck_filler s.pend) rfl), changesNothing_idle s⟩

/-- Settles O45: both forms run the one rule, whatever is pending. -/
theorem nopIdles : Obligations.NopIdles := by
  unfold Obligations.NopIdles
  intro s
  exact ⟨changesNothing_nopRule (fun _ => rfl) s, changesNothing_nopRule (fun _ => rfl) s⟩

/-- A slot-bearing instruction that gets to its rule stands outside a slot (R234 c). -/
theorem pend_none_of_executes {i : Instr} {s : State} (hr : i.slotRole = .bearing) (he : Executes i s = true) :
    s.pend = none := by
  obtain ⟨hc, -⟩ := executes_iff.1 he
  exact pend_none_of_bearing (hr ▸ hc)

/-- An unconditional slot-bearing form runs its rule. -/
theorem runsRule_bearing {i : Instr} {body : State → Effect} (hr : i.slotRole = .bearing)
    (hx : ∀ s, exec i s = bearing body s) : RunsRule i body := by
  intro s u he hb
  obtain ⟨hc, -⟩ := executes_iff.1 he
  rw [hr] at hc
  exact (hx s).trans (runInstr_done hc hb)

/-- A conditional slot-bearing form runs its rule, `Executes` being where its condition holds (R232). -/
theorem runsRule_bearingIf {i : Instr} {cc : Cond} {k : CReg} {mustBeNop : Bool} {body : State → Effect}
    (hr : i.slotRole = .bearing) (hi : i.condition? = some (cc, k))
    (hx : ∀ s, exec i s = bearingIf cc k mustBeNop body s) : RunsRule i body := by
  intro s u he hb
  obtain ⟨hc, hh⟩ := executes_iff.1 he
  rw [hr] at hc
  exact (hx s).trans (bearingIf_done hc (hh cc k hi) hb)

section Rules
variable {i : Instr}

/-- A rule of a slot-bearing form that only leaves the transfer `tr` pending. -/
theorem transfersTo_transfer {body : State → Effect} {tr : State → Transfer} (hr : i.slotRole = .bearing)
    (h : RunsRule i body)
    (hb : ∀ s : State, body s.opened = .done (s.opened.transfer (tr s).target (tr s).newPSR (tr s).mustBeNop)) :
    TransfersTo i tr :=
  fun s he => ⟨_, h s _ he (hb s), transfersOnly_transfer (pend_none_of_executes hr he) _ _ _⟩

/-- The rule of `jmp` (R245): its target counts from the slot, and opening the state moves neither `pc` nor the length. -/
theorem transfersTo_jmpRule {n : Nat} {imm : BitVec n} (hn : n < 32) (hr : i.slotRole = .bearing)
    (h : RunsRule i (jmpRule imm)) : TransfersTo i fun s => ⟨some (targetOf imm.toInt s), none, false⟩ :=
  transfersTo_transfer hr h fun s => by
    have htarget : s.opened.branchTarget imm = targetOf imm.toInt s := branchTarget_eq s.opened imm hn
    simp only [jmpRule, htarget]

/-- The rule of `jmpr` (R246). -/
theorem transfersTo_jmprRule {a : Reg} (hr : i.slotRole = .bearing) (h : RunsRule i (jmprRule a)) :
    TransfersTo i fun s => ⟨some (readReg s a), none, false⟩ :=
  transfersTo_transfer hr h fun s => by simp only [jmprRule, reg_eq_readReg, readReg_opened]

end Rules

/-- Settles O43, mnemonic by mnemonic: the forms run the same rule, the 16-bit `jmpr` on the register its short operand names
(R23). -/
theorem jumps : Obligations.Jumps := by
  unfold Obligations.Jumps
  refine ⟨?jmp, ?jmpShort, ?jmpr⟩
  case jmp => exact fun _ => transfersTo_jmpRule (by decide) rfl (runsRule_bearing rfl fun _ => rfl)
  case jmpShort => exact fun _ => transfersTo_jmpRule (by decide) rfl (runsRule_bearing rfl fun _ => rfl)
  case jmpr => exact ⟨
    fun _ => transfersTo_jmprRule rfl (runsRule_bearing rfl fun _ => rfl),
    fun _ _ _ => transfersTo_jmprRule rfl (runsRule_bearingIf rfl rfl fun _ => rfl),
    fun _ => transfersTo_jmprRule rfl (runsRule_bearing rfl fun _ => rfl)⟩

end Sys2Proof.Machine
end

section
/-! PROOFS. The reference encoding (spec/30_encoding.md) both ways: the fields of a word put together from fields; then, for
each format, that the decoder's format takes the encoder's word apart again, and that a word it accepts is the encoder's
word of what it answers. A format is told what the encoder makes of its instructions (`IsWord`, `IsHalf`); the opcode tables
are walked through once in each direction. -/

namespace Sys2Proof

open Machine (append_toNat fieldAt_toNat)

/-! ### Fields of words put together from fields -/

@[simp] theorem fieldAt_toWord {m lo n : Nat} (b : BitVec m) (h : lo + n ≤ 32) :
    fieldAt (toWord b) lo n = fieldAt b lo n := by
  apply BitVec.eq_of_getLsbD_eq
  intro i hi
  simp only [fieldAt_getLsbD, toWord_getLsbD]
  grind

@[simp] theorem fieldAt_toHalf {m lo n : Nat} (b : BitVec m) (h : lo + n ≤ 16) :
    fieldAt (toHalf b) lo n = fieldAt b lo n := by
  apply BitVec.eq_of_getLsbD_eq
  intro i hi
  simp only [fieldAt_getLsbD, toHalf_getLsbD]
  grind

/-- A field that lies in the less significant part. -/
@[simp] theorem fieldAt_append_right {m n lo k : Nat} (x : BitVec m) (y : BitVec n) (h : lo + k ≤ n) :
    fieldAt (x ++ y) lo k = fieldAt y lo k := by
  apply BitVec.eq_of_getLsbD_eq
  intro i hi
  simp only [fieldAt_getLsbD, BitVec.getLsbD_append]
  grind

/-- A field that lies in the more significant part. -/
@[simp] theorem fieldAt_append_left {m n lo k : Nat} (x : BitVec m) (y : BitVec n) (h : n ≤ lo) :
    fieldAt (x ++ y) lo k = fieldAt x (lo - n) k := by
  apply BitVec.eq_of_getLsbD_eq
  intro i hi
  simp only [fieldAt_getLsbD, BitVec.getLsbD_append]
  grind

@[simp] theorem fieldAt_zero {m lo n : Nat} : fieldAt (0#m) lo n = 0#n := by
  simp only [fieldAt, BitVec.extractLsb'_zero]

@[simp] theorem fieldAt_whole {n : Nat} (x : BitVec n) : fieldAt x 0 n = x := by
  simp only [fieldAt, BitVec.extractLsb'_eq_self]

/-! ### Each format takes apart the words that the encoder puts together

The widths of the fields stay sums, as the encoder has them, so that each field is found where it was put. -/

theorem formatR3_wordR3 (op : BitVec 6) (d a b : Reg) : opcode (wordR3 op d a b) = op.toNat ∧
    ∀ u c, formatR3 u c (wordR3 op d a b) = .ok (u d a b) := by
  simp [-Nat.reduceAdd, opcode, wordR3, formatR3, byForm, ifZero]

theorem formatR3_wordR3c (op : BitVec 6) (cc : Cond) (k : CReg) (d a b : Reg) :
    opcode (wordR3c op cc k d a b) = op.toNat ∧
    ∀ u c, formatR3 u c (wordR3c op cc k d a b) = .ok (c cc k d a b) := by
  simp [-Nat.reduceAdd, opcode, wordR3c, condField, formatR3, byForm, ifZero]

theorem formatR2_wordR2 (op : BitVec 6) (d a : Reg) : opcode (wordR2 op d a) = op.toNat ∧
    ∀ u c, formatR2 u c (wordR2 op d a) = .ok (u d a) := by
  simp [-Nat.reduceAdd, opcode, wordR2, formatR2, byForm, ifZero]

theorem formatR2_wordR2c (op : BitVec 6) (cc : Cond) (k : CReg) (d a : Reg) :
    opcode (wordR2c op cc k d a) = op.toNat ∧
    ∀ u c, formatR2 u c (wordR2c op cc k d a) = .ok (c cc k d a) := by
  simp [-Nat.reduceAdd, opcode, wordR2c, condField, formatR2, byForm, ifZero]

theorem formatRD_wordRD (op : BitVec 6) (d : Reg) : opcode (wordRD op d) = op.toNat ∧
    ∀ u c, formatRD u c (wordRD op d) = .ok (u d) := by
  simp [-Nat.reduceAdd, opcode, wordRD, formatRD, byForm, ifZero]

theorem formatRD_wordRDc (op : BitVec 6) (cc : Cond) (k : CReg) (d : Reg) :
    opcode (wordRDc op cc k d) = op.toNat ∧
    ∀ u c, formatRD u c (wordRDc op cc k d) = .ok (c cc k d) := by
  simp [-Nat.reduceAdd, opcode, wordRDc, condField, formatRD, byForm, ifZero]

theorem formatRS_wordRS (op : BitVec 6) (a : Reg) : opcode (wordRS op a) = op.toNat ∧
    ∀ u c, formatRS u c (wordRS op a) = .ok (u a) := by
  simp [-Nat.reduceAdd, opcode, wordRS, formatRS, byForm, ifZero]

theorem formatRS_wordRSc (op : BitVec 6) (cc : Cond) (k : CReg) (a : Reg) :
    opcode (wordRSc op cc k a) = op.toNat ∧
    ∀ u c, formatRS u c (wordRSc op cc k a) = .ok (c cc k a) := by
  simp [-Nat.reduceAdd, opcode, wordRSc, condField, formatRS, byForm, ifZero]

theorem formatI_wordI (op : BitVec 6) (d a : Reg) (imm : BitVec 15) : opcode (wordI op d a imm) = op.toNat ∧
    ∀ u c, formatI u c (wordI op d a imm) = .ok (u d a imm) := by
  simp [-Nat.reduceAdd, opcode, wordI, formatI, byForm]

theorem formatI_wordIc (op : BitVec 6) (cc : Cond) (k : CReg) (d a : Reg) (imm : BitVec 9) :
    opcode (wordIc op cc k d a imm) = op.toNat ∧
    ∀ u c, formatI u c (wordIc op cc k d a imm) = .ok (c cc k d a imm) := by
  simp [-Nat.reduceAdd, opcode, wordIc, condField, formatI, byForm]

theorem formatST_wordST (op : BitVec 6) (b a : Reg) (imm : BitVec 15) : opcode (wordST op b a imm) = op.toNat ∧
    ∀ u c, formatST u c (wordST op b a imm) = .ok (u b a imm) := by
  simp [-Nat.reduceAdd, opcode, wordST, formatST, byForm]

theorem formatST_wordSTc (op : BitVec 6) (cc : Cond) (k : CReg) (b a : Reg) (imm : BitVec 9) :
    opcode (wordSTc op cc k b a imm) = op.toNat ∧
    ∀ u c, formatST u c (wordSTc op cc k b a imm) = .ok (c cc k b a imm) := by
  simp [-Nat.reduceAdd, opcode, wordSTc, condField, formatST, byForm]

theorem formatS6_wordS6 (op : BitVec 6) (d a : Reg) (imm : BitVec 6) : opcode (wordS6 op d a imm) = op.toNat ∧
    ∀ u c, formatS6 u c (wordS6 op d a imm) = .ok (u d a imm) := by
  simp [-Nat.reduceAdd, opcode, wordS6, formatS6, byForm, ifZero]

theorem formatS6_wordS6c (op : BitVec 6) (cc : Cond) (k : CReg) (d a : Reg) (imm : BitVec 6) :
    opcode (wordS6c op cc k d a imm) = op.toNat ∧
    ∀ u c, formatS6 u c (wordS6c op cc k d a imm) = .ok (c cc k d a imm) := by
  simp [-Nat.reduceAdd, opcode, wordS6c, condField, formatS6, byForm, ifZero]

theorem formatS5_wordS5 (op : BitVec 6) (d a : Reg) (imm : BitVec 5) : opcode (wordS5 op d a imm) = op.toNat ∧
    ∀ u c, formatS5 u c (wordS5 op d a imm) = .ok (u d a imm) := by
  simp [-Nat.reduceAdd, opcode, wordS5, formatS5, byForm, ifZero]

theorem formatS5_wordS5c (op : BitVec 6) (cc : Cond) (k : CReg) (d a : Reg) (imm : BitVec 5) :
    opcode (wordS5c op cc k d a imm) = op.toNat ∧
    ∀ u c, formatS5 u c (wordS5c op cc k d a imm) = .ok (c cc k d a imm) := by
  simp [-Nat.reduceAdd, opcode, wordS5c, condField, formatS5, byForm, ifZero]

theorem formatS2_wordS2 (op : BitVec 6) (d a : Reg) (imm : BitVec 2) : opcode (wordS2 op d a imm) = op.toNat ∧
    ∀ u c, formatS2 u c (wordS2 op d a imm) = .ok (u d a imm) := by
  simp [-Nat.reduceAdd, opcode, wordS2, formatS2, byForm, ifZero]

theorem formatS2_wordS2c (op : BitVec 6) (cc : Cond) (k : CReg) (d a : Reg) (imm : BitVec 2) :
    opcode (wordS2c op cc k d a imm) = op.toNat ∧
    ∀ u c, formatS2 u c (wordS2c op cc k d a imm) = .ok (c cc k d a imm) := by
  simp [-Nat.reduceAdd, opcode, wordS2c, condField, formatS2, byForm, ifZero]

theorem formatS1_wordS1 (op : BitVec 6) (d a : Reg) (imm : BitVec 1) : opcode (wordS1 op d a imm) = op.toNat ∧
    ∀ u c, formatS1 u c (wordS1 op d a imm) = .ok (u d a imm) := by
  simp [-Nat.reduceAdd, opcode, wordS1, formatS1, byForm, ifZero]

theorem formatS1_wordS1c (op : BitVec 6) (cc : Cond) (k : CReg) (d a : Reg) (imm : BitVec 1) :
    opcode (wordS1c op cc k d a imm) = op.toNat ∧
    ∀ u c, formatS1 u c (wordS1c op cc k d a imm) = .ok (c cc k d a imm) := by
  simp [-Nat.reduceAdd, opcode, wordS1c, condField, formatS1, byForm, ifZero]

theorem formatSC_wordSC (op : BitVec 6) : opcode (wordSC op) = op.toNat ∧
    ∀ u c, formatSC u c (wordSC op) = .ok u := by
  simp [-Nat.reduceAdd, opcode, wordSC, formatSC, byForm, ifZero]

theorem formatSC_wordSCc (op : BitVec 6) (cc : Cond) (k : CReg) :
    opcode (wordSCc op cc k) = op.toNat ∧
    ∀ u c, formatSC u c (wordSCc op cc k) = .ok (c cc k) := by
  simp [-Nat.reduceAdd, opcode, wordSCc, condField, formatSC, byForm, ifZero]

theorem formatB_wordB (op : BitVec 6) (k : CReg) (imm : BitVec 22) : opcode (wordB op k imm) = op.toNat ∧
    ∀ u, formatB u (wordB op k imm) = .ok (u k imm) := by
  simp [-Nat.reduceAdd, opcode, wordB, formatB, unconditional]

theorem formatJ_wordJ (op : BitVec 6) (imm : BitVec 25) : opcode (wordJ op imm) = op.toNat ∧
    ∀ u, formatJ u (wordJ op imm) = .ok (u imm) := by
  simp [-Nat.reduceAdd, opcode, wordJ, formatJ, unconditional]

theorem formatCMP_wordCMP (op : BitVec 6) (k : CReg) (a b : Reg) : opcode (wordCMP op k a b) = op.toNat ∧
    ∀ u, formatCMP u (wordCMP op k a b) = .ok (u k a b) := by
  simp [-Nat.reduceAdd, opcode, wordCMP, formatCMP, unconditional, ifZero]

theorem formatCMPI_wordCMPI (op : BitVec 6) (k : CReg) (a : Reg) (imm : BitVec 17) : opcode (wordCMPI op k a imm) = op.toNat ∧
    ∀ u, formatCMPI u (wordCMPI op k a imm) = .ok (u k a imm) := by
  simp [-Nat.reduceAdd, opcode, wordCMPI, formatCMPI, unconditional]

theorem formatLI_wordLI (op : BitVec 6) (d : Reg) (imm : BitVec 16) : opcode (wordLI op d imm) = op.toNat ∧
    ∀ u, formatLI u (wordLI op d imm) = .ok (u d imm) := by
  simp [-Nat.reduceAdd, opcode, wordLI, formatLI, unconditional, ifZero]

theorem formatBFI_wordBFI (op : BitVec 6) (d a : Reg) (imm : BitVec 11) : opcode (wordBFI op d a imm) = op.toNat ∧
    ∀ u, formatBFI u (wordBFI op d a imm) = .ok (u d a imm) := by
  simp [-Nat.reduceAdd, opcode, wordBFI, formatBFI, unconditional, ifZero]

theorem formatND_wordND (op : BitVec 6) (d : Reg) : opcode (wordND op d) = op.toNat ∧
    ∀ u, formatND u (wordND op d) = .ok (u d) := by
  simp [-Nat.reduceAdd, opcode, wordND, formatND, unconditional, ifZero]

theorem formatNS_wordNS (op : BitVec 6) (a : Reg) : opcode (wordNS op a) = op.toNat ∧
    ∀ u, formatNS u (wordNS op a) = .ok (u a) := by
  simp [-Nat.reduceAdd, opcode, wordNS, formatNS, unconditional, ifZero]

theorem formatN2_wordN2 (op : BitVec 6) (imm : BitVec 2) : opcode (wordN2 op imm) = op.toNat ∧
    ∀ u, formatN2 u (wordN2 op imm) = .ok (u imm) := by
  simp [-Nat.reduceAdd, opcode, wordN2, formatN2, unconditional, ifZero]

theorem formatN6_wordN6 (op : BitVec 6) (imm : BitVec 6) : opcode (wordN6 op imm) = op.toNat ∧
    ∀ u, formatN6 u (wordN6 op imm) = .ok (u imm) := by
  simp [-Nat.reduceAdd, opcode, wordN6, formatN6, unconditional, ifZero]

theorem formatCPF_wordCPF (op : BitVec 6) (n : CopNum) (d r : Reg) : opcode (wordCPF op n d r) = op.toNat ∧
    ∀ u c u0 c0, formatCPF u c u0 c0 (wordCPF op n d r) = .ok (if r = 0#5 then u0 n d else u n d r) := by
  simp [-Nat.reduceAdd, opcode, wordCPF, formatCPF, byForm, ifZero]

theorem formatCPF_wordCPFc (op : BitVec 6) (cc : Cond) (k : CReg) (n : CopNum) (d r : Reg) :
    opcode (wordCPFc op cc k n d r) = op.toNat ∧
    ∀ u c u0 c0, formatCPF u c u0 c0 (wordCPFc op cc k n d r) =
      .ok (if r = 0#5 then c0 cc k n d else c cc k n d r) := by
  simp [-Nat.reduceAdd, opcode, wordCPFc, condField, formatCPF, byForm, ifZero]

theorem formatCPT_wordCPT (op : BitVec 6) (n : CopNum) (r a : Reg) : opcode (wordCPT op n r a) = op.toNat ∧
    ∀ u c u0 c0, formatCPT u c u0 c0 (wordCPT op n r a) = .ok (if r = 0#5 then u0 n a else u n r a) := by
  simp [-Nat.reduceAdd, opcode, wordCPT, formatCPT, byForm, ifZero]

theorem formatCPT_wordCPTc (op : BitVec 6) (cc : Cond) (k : CReg) (n : CopNum) (r a : Reg) :
    opcode (wordCPTc op cc k n r a) = op.toNat ∧
    ∀ u c u0 c0, formatCPT u c u0 c0 (wordCPTc op cc k n r a) =
      .ok (if r = 0#5 then c0 cc k n a else c cc k n r a) := by
  simp [-Nat.reduceAdd, opcode, wordCPTc, condField, formatCPT, byForm, ifZero]

theorem formatCOP_wordCOP (n : CopNum) (x : BitVec 24) : opcode (wordCOP n x) = 18 ∧
    ∀ u, formatCOP u (wordCOP n x) = .ok (u n x) := by
  simp [-Nat.reduceAdd, opcode, wordCOP, formatCOP]

theorem format_r2_half_r2 (op : BitVec 6) (d a : RegS) : opcodeS (half_r2 op d a) = op.toNat ∧
    ∀ u, format_r2 u (half_r2 op d a) = .ok (u d a) := by
  simp [-Nat.reduceAdd, opcodeS, half_r2, format_r2, ifZero]

theorem format_c2_half_c2 (op : BitVec 6) (a b : RegS) : opcodeS (half_c2 op a b) = op.toNat ∧
    ∀ u, format_c2 u (half_c2 op a b) = .ok (u a b) := by
  simp [-Nat.reduceAdd, opcodeS, half_c2, format_c2, ifZero]

theorem format_rd_half_rd (op : BitVec 6) (d : RegS) : opcodeS (half_rd op d) = op.toNat ∧
    ∀ u, format_rd u (half_rd op d) = .ok (u d) := by
  simp [-Nat.reduceAdd, opcodeS, half_rd, format_rd, ifZero]

theorem format_rs_half_rs (op : BitVec 6) (a : RegS) : opcodeS (half_rs op a) = op.toNat ∧
    ∀ u, format_rs u (half_rs op a) = .ok (u a) := by
  simp [-Nat.reduceAdd, opcodeS, half_rs, format_rs, ifZero]

theorem format_i7_half_i7 (op : BitVec 6) (d : RegS) (imm : BitVec 7) : opcodeS (half_i7 op d imm) = op.toNat ∧
    ∀ u, format_i7 u (half_i7 op d imm) = .ok (u d imm) := by
  simp [-Nat.reduceAdd, opcodeS, half_i7, format_i7]

theorem format_ci7_half_ci7 (op : BitVec 6) (a : RegS) (imm : BitVec 7) : opcodeS (half_ci7 op a imm) = op.toNat ∧
    ∀ u, format_ci7 u (half_ci7 op a imm) = .ok (u a imm) := by
  simp [-Nat.reduceAdd, opcodeS, half_ci7, format_ci7]

theorem format_m4_half_m4 (op : BitVec 6) (d a : RegS) (imm : BitVec 4) : opcodeS (half_m4 op d a imm) = op.toNat ∧
    ∀ u, format_m4 u (half_m4 op d a imm) = .ok (u d a imm) := by
  simp [-Nat.reduceAdd, opcodeS, half_m4, format_m4]

theorem format_st4_half_st4 (op : BitVec 6) (b a : RegS) (imm : BitVec 4) : opcodeS (half_st4 op b a imm) = op.toNat ∧
    ∀ u, format_st4 u (half_st4 op b a imm) = .ok (u b a imm) := by
  simp [-Nat.reduceAdd, opcodeS, half_st4, format_st4]

theorem format_s6_half_s6 (op : BitVec 6) (d : RegS) (imm : BitVec 6) : opcodeS (half_s6 op d imm) = op.toNat ∧
    ∀ u, format_s6 u (half_s6 op d imm) = .ok (u d imm) := by
  simp [-Nat.reduceAdd, opcodeS, half_s6, format_s6, ifZero]

theorem format_s5_half_s5 (op : BitVec 6) (d : RegS) (imm : BitVec 5) : opcodeS (half_s5 op d imm) = op.toNat ∧
    ∀ u, format_s5 u (half_s5 op d imm) = .ok (u d imm) := by
  simp [-Nat.reduceAdd, opcodeS, half_s5, format_s5, ifZero]

theorem format_x2_half_x2 (op : BitVec 6) (d a : RegS) (imm : BitVec 2) : opcodeS (half_x2 op d a imm) = op.toNat ∧
    ∀ u, format_x2 u (half_x2 op d a imm) = .ok (u d a imm) := by
  simp [-Nat.reduceAdd, opcodeS, half_x2, format_x2, ifZero]

theorem format_x1_half_x1 (op : BitVec 6) (d a : RegS) (imm : BitVec 1) : opcodeS (half_x1 op d a imm) = op.toNat ∧
    ∀ u, format_x1 u (half_x1 op d a imm) = .ok (u d a imm) := by
  simp [-Nat.reduceAdd, opcodeS, half_x1, format_x1, ifZero]

theorem format_b10_half_b10 (op : BitVec 6) (imm : BitVec 10) : opcodeS (half_b10 op imm) = op.toNat ∧
    ∀ u, format_b10 u (half_b10 op imm) = .ok (u imm) := by
  simp [-Nat.reduceAdd, opcodeS, half_b10, format_b10]

theorem format_n2_half_n2 (op : BitVec 6) (imm : BitVec 2) : opcodeS (half_n2 op imm) = op.toNat ∧
    ∀ u, format_n2 u (half_n2 op imm) = .ok (u imm) := by
  simp [-Nat.reduceAdd, opcodeS, half_n2, format_n2, ifZero]

theorem format_n6_half_n6 (op : BitVec 6) (imm : BitVec 6) : opcodeS (half_n6 op imm) = op.toNat ∧
    ∀ u, format_n6 u (half_n6 op imm) = .ok (u imm) := by
  simp [-Nat.reduceAdd, opcodeS, half_n6, format_n6, ifZero]

theorem format_sc_half_sc (op : BitVec 6) : opcodeS (half_sc op) = op.toNat ∧
    ∀ u, format_sc u (half_sc op) = .ok u := by
  simp [-Nat.reduceAdd, opcodeS, half_sc, format_sc, ifZero]

theorem format_cpf_half_cpf (op : BitVec 6) (n : CopNum) (d : RegS) (r : Reg) :
    opcodeS (half_cpf op n d r) = op.toNat ∧
    ∀ u u0, format_cpf u u0 (half_cpf op n d r) = .ok (if r = 0#5 then u0 n d else u n d r) := by
  simp [-Nat.reduceAdd, opcodeS, half_cpf, format_cpf]

theorem format_cpt_half_cpt (op : BitVec 6) (n : CopNum) (r : Reg) (a : RegS) :
    opcodeS (half_cpt op n r a) = op.toNat ∧
    ∀ u u0, format_cpt u u0 (half_cpt op n r a) = .ok (if r = 0#5 then u0 n a else u n r a) := by
  simp [-Nat.reduceAdd, opcodeS, half_cpt, format_cpt]

/-! ### The encoder's word is decoded -/

/-- `i` is an instruction of 32-bit mode and the encoder makes `w` of it. -/
def IsWord (i : Instr) (w : Word) : Prop := i.mode = .il32 ∧ encodeWord i = .word w

/-- `i` is an instruction of 16-bit mode and the encoder makes `h` of it. -/
def IsHalf (i : Instr) (h : Half) : Prop := i.mode = .il16 ∧ encodeWord i = .half h

theorem decode_encode_of_word {i : Instr} {w : Word} (hi : IsWord i w) (hd : decode32 w = .ok i) :
    decode i.mode (encode i) = .ok i := by
  rw [encode, hi.1, hi.2]
  exact (decode_bytesOfWord w).trans hd

theorem decode_encode_of_half {i : Instr} {h : Half} (hi : IsHalf i h) (hd : decode16 h = .ok i) :
    decode i.mode (encode i) = .ok i := by
  rw [encode, hi.1, hi.2]
  exact (decode_bytesOfHalf h).trans hd

/-- Settles O1, format by format: the opcode of the encoder's word selects the format it was put together in. -/
theorem decodeEncode : Obligations.DecodeEncode := by
  unfold Obligations.DecodeEncode
  intro i hi
  cases i
  case add | addu | and | conb | conh | exbf | muls | muls16 | mulu | mulu16 | mulus | mulus16 | or | sext | sll |
      sra | srl | sub | subu | xor =>
    refine decode_encode_of_word ⟨rfl, rfl⟩ ?_
    rw [decode32, (formatR3_wordR3 _ _ _ _).1]
    exact (formatR3_wordR3 _ _ _ _).2 _ _
  case addCond | adduCond | andCond | conbCond | conhCond | exbfCond | mulsCond | muls16Cond | muluCond | mulu16Cond |
      mulusCond | mulus16Cond | orCond | sextCond | sllCond | sraCond | srlCond | subCond | subuCond | xorCond =>
    refine decode_encode_of_word ⟨rfl, rfl⟩ ?_
    rw [decode32, (formatR3_wordR3c _ _ _ _ _ _).1]
    exact (formatR3_wordR3c _ _ _ _ _ _).2 _ _
  case addShort | adduShort | andShort | conbShort | conhShort | exbfShort | movShort | mulsShort | muls16Short |
      muluShort | mulu16Short | mulusShort | mulus16Short | notShort | orShort | sextShort | sllShort | sraShort |
      srlShort | subShort | subuShort | xorShort =>
    refine decode_encode_of_half ⟨rfl, rfl⟩ ?_
    rw [decode16, (format_r2_half_r2 _ _ _).1]
    exact (format_r2_half_r2 _ _ _).2 _
  case addi | addiu | andi | ld | muli | ori =>
    refine decode_encode_of_word ⟨rfl, rfl⟩ ?_
    rw [decode32, (formatI_wordI _ _ _ _).1]
    exact (formatI_wordI _ _ _ _).2 _ _
  case addiCond | addiuCond | andiCond | ldCond | muliCond | oriCond =>
    refine decode_encode_of_word ⟨rfl, rfl⟩ ?_
    rw [decode32, (formatI_wordIc _ _ _ _ _ _).1]
    exact (formatI_wordIc _ _ _ _ _ _).2 _ _
  case addiShort | addiuShort | andiShort | muliShort | oriShort =>
    refine decode_encode_of_half ⟨rfl, rfl⟩ ?_
    rw [decode16, (format_i7_half_i7 _ _ _).1]
    exact (format_i7_half_i7 _ _ _).2 _
  case bc | begt | belt | beq | bgt | blt | bne =>
    refine decode_encode_of_word ⟨rfl, rfl⟩ ?_
    rw [decode32, (formatB_wordB _ _ _).1]
    exact (formatB_wordB _ _ _).2 _
  case bcShort | begtShort | beltShort | beqShort | bgtShort | bltShort | bneShort | jalShort | jmpShort =>
    refine decode_encode_of_half ⟨rfl, rfl⟩ ?_
    rw [decode16, (format_b10_half_b10 _ _).1]
    exact (format_b10_half_b10 _ _).2 _
  case chrs =>
    refine decode_encode_of_word ⟨rfl, rfl⟩ ?_
    rw [decode32, (formatN2_wordN2 _ _).1]
    exact (formatN2_wordN2 _ _).2 _
  case chrsShort =>
    refine decode_encode_of_half ⟨rfl, rfl⟩ ?_
    rw [decode16, (format_n2_half_n2 _ _).1]
    exact (format_n2_half_n2 _ _).2 _
  case cmp =>
    refine decode_encode_of_word ⟨rfl, rfl⟩ ?_
    rw [decode32, (formatCMP_wordCMP _ _ _ _).1]
    exact (formatCMP_wordCMP _ _ _ _).2 _
  case cmpShort =>
    refine decode_encode_of_half ⟨rfl, rfl⟩ ?_
    rw [decode16, (format_c2_half_c2 _ _ _).1]
    exact (format_c2_half_c2 _ _ _).2 _
  case cmpi =>
    refine decode_encode_of_word ⟨rfl, rfl⟩ ?_
    rw [decode32, (formatCMPI_wordCMPI _ _ _ _).1]
    exact (formatCMPI_wordCMPI _ _ _ _).2 _
  case cmpiShort =>
    refine decode_encode_of_half ⟨rfl, rfl⟩ ?_
    rw [decode16, (format_ci7_half_ci7 _ _ _).1]
    exact (format_ci7_half_ci7 _ _ _).2 _
  case cop =>
    refine decode_encode_of_word ⟨rfl, rfl⟩ ?_
    rw [decode32, (formatCOP_wordCOP _ _).1]
    exact (formatCOP_wordCOP _ _).2 _
  case di | ei | nop | reti | retu | trap => exact decode_encode_of_word ⟨rfl, rfl⟩ (by decide)
  case diShort | eiShort | nopShort | retiShort | retuShort | trapShort => exact decode_encode_of_half ⟨rfl, rfl⟩ (by decide)
  case exb =>
    refine decode_encode_of_word ⟨rfl, rfl⟩ ?_
    rw [decode32, (formatS2_wordS2 _ _ _ _).1]
    exact (formatS2_wordS2 _ _ _ _).2 _ _
  case exbCond =>
    refine decode_encode_of_word ⟨rfl, rfl⟩ ?_
    rw [decode32, (formatS2_wordS2c _ _ _ _ _ _).1]
    exact (formatS2_wordS2c _ _ _ _ _ _).2 _ _
  case exbShort =>
    refine decode_encode_of_half ⟨rfl, rfl⟩ ?_
    rw [decode16, (format_x2_half_x2 _ _ _ _).1]
    exact (format_x2_half_x2 _ _ _ _).2 _
  case exbfi =>
    refine decode_encode_of_word ⟨rfl, rfl⟩ ?_
    rw [decode32, (formatBFI_wordBFI _ _ _ _).1]
    exact (formatBFI_wordBFI _ _ _ _).2 _
  case exh =>
    refine decode_encode_of_word ⟨rfl, rfl⟩ ?_
    rw [decode32, (formatS1_wordS1 _ _ _ _).1]
    exact (formatS1_wordS1 _ _ _ _).2 _ _
  case exhCond =>
    refine decode_encode_of_word ⟨rfl, rfl⟩ ?_
    rw [decode32, (formatS1_wordS1c _ _ _ _ _ _).1]
    exact (formatS1_wordS1c _ _ _ _ _ _).2 _ _
  case exhShort =>
    refine decode_encode_of_half ⟨rfl, rfl⟩ ?_
    rw [decode16, (format_x1_half_x1 _ _ _ _).1]
    exact (format_x1_half_x1 _ _ _ _).2 _
  case jal | jmp =>
    refine decode_encode_of_word ⟨rfl, rfl⟩ ?_
    rw [decode32, (formatJ_wordJ _ _).1]
    exact (formatJ_wordJ _ _).2 _
  case jalr | jmpr =>
    refine decode_encode_of_word ⟨rfl, rfl⟩ ?_
    rw [decode32, (formatRS_wordRS _ _).1]
    exact (formatRS_wordRS _ _).2 _ _
  case jalrCond | jmprCond =>
    refine decode_encode_of_word ⟨rfl, rfl⟩ ?_
    rw [decode32, (formatRS_wordRSc _ _ _ _).1]
    exact (formatRS_wordRSc _ _ _ _).2 _ _
  case jalrShort | jmprShort | rconShort =>
    refine decode_encode_of_half ⟨rfl, rfl⟩ ?_
    rw [decode16, (format_rs_half_rs _ _).1]
    exact (format_rs_half_rs _ _).2 _
  case ldShort =>
    refine decode_encode_of_half ⟨rfl, rfl⟩ ?_
    rw [decode16, (format_m4_half_m4 _ _ _ _).1]
    exact (format_m4_half_m4 _ _ _ _).2 _
  case lli | lui =>
    refine decode_encode_of_word ⟨rfl, rfl⟩ ?_
    rw [decode32, (formatLI_wordLI _ _ _).1]
    exact (formatLI_wordLI _ _ _).2 _
  case mov | not =>
    refine decode_encode_of_word ⟨rfl, rfl⟩ ?_
    rw [decode32, (formatR2_wordR2 _ _ _).1]
    exact (formatR2_wordR2 _ _ _).2 _ _
  case movCond | notCond =>
    refine decode_encode_of_word ⟨rfl, rfl⟩ ?_
    rw [decode32, (formatR2_wordR2c _ _ _ _ _).1]
    exact (formatR2_wordR2c _ _ _ _ _).2 _ _
  case movcfc =>
    refine decode_encode_of_word ⟨rfl, rfl⟩ ?_
    rw [decode32, (formatCPF_wordCPF _ _ _ _).1]
    exact ((formatCPF_wordCPF _ _ _ _).2 _ _ _ _).trans (by rw [if_pos rfl])
  case movdfc =>
    refine decode_encode_of_word ⟨rfl, rfl⟩ ?_
    rw [decode32, (formatCPF_wordCPF _ _ _ _).1]
    exact ((formatCPF_wordCPF _ _ _ _).2 _ _ _ _).trans (by rw [if_neg (bne_iff_ne.1 hi)])
  case movcfcCond =>
    refine decode_encode_of_word ⟨rfl, rfl⟩ ?_
    rw [decode32, (formatCPF_wordCPFc _ _ _ _ _ _).1]
    exact ((formatCPF_wordCPFc _ _ _ _ _ _).2 _ _ _ _).trans (by rw [if_pos rfl])
  case movdfcCond =>
    refine decode_encode_of_word ⟨rfl, rfl⟩ ?_
    rw [decode32, (formatCPF_wordCPFc _ _ _ _ _ _).1]
    exact ((formatCPF_wordCPFc _ _ _ _ _ _).2 _ _ _ _).trans (by rw [if_neg (bne_iff_ne.1 hi)])
  case movcfcShort =>
    refine decode_encode_of_half ⟨rfl, rfl⟩ ?_
    rw [decode16, (format_cpf_half_cpf _ _ _ _).1]
    exact ((format_cpf_half_cpf _ _ _ _).2 _ _).trans (by rw [if_pos rfl])
  case movdfcShort =>
    refine decode_encode_of_half ⟨rfl, rfl⟩ ?_
    rw [decode16, (format_cpf_half_cpf _ _ _ _).1]
    exact ((format_cpf_half_cpf _ _ _ _).2 _ _).trans (by rw [if_neg (bne_iff_ne.1 hi)])
  case movctc =>
    refine decode_encode_of_word ⟨rfl, rfl⟩ ?_
    rw [decode32, (formatCPT_wordCPT _ _ _ _).1]
    exact ((formatCPT_wordCPT _ _ _ _).2 _ _ _ _).trans (by rw [if_pos rfl])
  case movdtc =>
    refine decode_encode_of_word ⟨rfl, rfl⟩ ?_
    rw [decode32, (formatCPT_wordCPT _ _ _ _).1]
    exact ((formatCPT_wordCPT _ _ _ _).2 _ _ _ _).trans (by rw [if_neg (bne_iff_ne.1 hi)])
  case movctcCond =>
    refine decode_encode_of_word ⟨rfl, rfl⟩ ?_
    rw [decode32, (formatCPT_wordCPTc _ _ _ _ _ _).1]
    exact ((formatCPT_wordCPTc _ _ _ _ _ _).2 _ _ _ _).trans (by rw [if_pos rfl])
  case movdtcCond =>
    refine decode_encode_of_word ⟨rfl, rfl⟩ ?_
    rw [decode32, (formatCPT_wordCPTc _ _ _ _ _ _).1]
    exact ((formatCPT_wordCPTc _ _ _ _ _ _).2 _ _ _ _).trans (by rw [if_neg (bne_iff_ne.1 hi)])
  case movctcShort =>
    refine decode_encode_of_half ⟨rfl, rfl⟩ ?_
    rw [decode16, (format_cpt_half_cpt _ _ _ _).1]
    exact ((format_cpt_half_cpt _ _ _ _).2 _ _).trans (by rw [if_pos rfl])
  case movdtcShort =>
    refine decode_encode_of_half ⟨rfl, rfl⟩ ?_
    rw [decode16, (format_cpt_half_cpt _ _ _ _).1]
    exact ((format_cpt_half_cpt _ _ _ _).2 _ _).trans (by rw [if_neg (bne_iff_ne.1 hi)])
  case mulhi =>
    refine decode_encode_of_word ⟨rfl, rfl⟩ ?_
    rw [decode32, (formatRD_wordRD _ _).1]
    exact (formatRD_wordRD _ _).2 _ _
  case mulhiCond =>
    refine decode_encode_of_word ⟨rfl, rfl⟩ ?_
    rw [decode32, (formatRD_wordRDc _ _ _ _).1]
    exact (formatRD_wordRDc _ _ _ _).2 _ _
  case mulhiShort | sconShort =>
    refine decode_encode_of_half ⟨rfl, rfl⟩ ?_
    rw [decode16, (format_rd_half_rd _ _).1]
    exact (format_rd_half_rd _ _).2 _
  case rcon =>
    refine decode_encode_of_word ⟨rfl, rfl⟩ ?_
    rw [decode32, (formatNS_wordNS _ _).1]
    exact (formatNS_wordNS _ _).2 _
  case scall =>
    refine decode_encode_of_word ⟨rfl, rfl⟩ ?_
    rw [decode32, (formatSC_wordSC _).1]
    exact (formatSC_wordSC _).2 _ _
  case scallCond =>
    refine decode_encode_of_word ⟨rfl, rfl⟩ ?_
    rw [decode32, (formatSC_wordSCc _ _ _).1]
    exact (formatSC_wordSCc _ _ _).2 _ _
  case scallShort =>
    refine decode_encode_of_half ⟨rfl, rfl⟩ ?_
    rw [decode16, (format_sc_half_sc _).1]
    exact (format_sc_half_sc _).2 _
  case scon =>
    refine decode_encode_of_word ⟨rfl, rfl⟩ ?_
    rw [decode32, (formatND_wordND _ _).1]
    exact (formatND_wordND _ _).2 _
  case sexti =>
    refine decode_encode_of_word ⟨rfl, rfl⟩ ?_
    rw [decode32, (formatS5_wordS5 _ _ _ _).1]
    exact (formatS5_wordS5 _ _ _ _).2 _ _
  case sextiCond =>
    refine decode_encode_of_word ⟨rfl, rfl⟩ ?_
    rw [decode32, (formatS5_wordS5c _ _ _ _ _ _).1]
    exact (formatS5_wordS5c _ _ _ _ _ _).2 _ _
  case sextiShort =>
    refine decode_encode_of_half ⟨rfl, rfl⟩ ?_
    rw [decode16, (format_s5_half_s5 _ _ _).1]
    exact (format_s5_half_s5 _ _ _).2 _
  case slli | srai | srli =>
    refine decode_encode_of_word ⟨rfl, rfl⟩ ?_
    rw [decode32, (formatS6_wordS6 _ _ _ _).1]
    exact (formatS6_wordS6 _ _ _ _).2 _ _
  case slliCond | sraiCond | srliCond =>
    refine decode_encode_of_word ⟨rfl, rfl⟩ ?_
    rw [decode32, (formatS6_wordS6c _ _ _ _ _ _).1]
    exact (formatS6_wordS6c _ _ _ _ _ _).2 _ _
  case slliShort | sraiShort | srliShort =>
    refine decode_encode_of_half ⟨rfl, rfl⟩ ?_
    rw [decode16, (format_s6_half_s6 _ _ _).1]
    exact (format_s6_half_s6 _ _ _).2 _
  case st =>
    refine decode_encode_of_word ⟨rfl, rfl⟩ ?_
    rw [decode32, (formatST_wordST _ _ _ _).1]
    exact (formatST_wordST _ _ _ _).2 _ _
  case stCond =>
    refine decode_encode_of_word ⟨rfl, rfl⟩ ?_
    rw [decode32, (formatST_wordSTc _ _ _ _ _ _).1]
    exact (formatST_wordSTc _ _ _ _ _ _).2 _ _
  case stShort =>
    refine decode_encode_of_half ⟨rfl, rfl⟩ ?_
    rw [decode16, (format_st4_half_st4 _ _ _ _).1]
    exact (format_st4_half_st4 _ _ _ _).2 _
  case swm =>
    refine decode_encode_of_word ⟨rfl, rfl⟩ ?_
    rw [decode32, (formatN6_wordN6 _ _).1]
    exact (formatN6_wordN6 _ _).2 _
  case swmShort =>
    refine decode_encode_of_half ⟨rfl, rfl⟩ ?_
    rw [decode16, (format_n6_half_n6 _ _).1]
    exact (format_n6_half_n6 _ _).2 _

/-! ### An accepted word is the encoder's -/

theorem toWord_toNat {m : Nat} (b : BitVec m) : (toWord b).toNat = b.toNat % 2 ^ 32 := BitVec.toNat_setWidth 32 b

theorem toHalf_toNat {m : Nat} (b : BitVec m) : (toHalf b).toNat = b.toNat % 2 ^ 16 := BitVec.toNat_setWidth 16 b

/-- What a decoder of 32-bit mode answers for `w`, if it is an instruction, the encoder makes `w` of. -/
def Tight (w : Word) (d : Decoded) : Prop := ∀ i, d = .ok i → IsWord i w

/-- What a decoder of 16-bit mode answers for `h`, if it is an instruction, the encoder makes `h` of. -/
def TightS (h : Half) (d : Decoded) : Prop := ∀ i, d = .ok i → IsHalf i h

theorem tight_error (w : Word) (why : Illegal) : Tight w (.error why) := nofun

theorem tightS_error (h : Half) (why : Illegal) : TightS h (.error why) := nofun

/-- Where the encoder's word of `i` is `w`, as a number. -/
theorem tight_ok {i : Instr} {v w : Word} (hi : IsWord i v) (h : v.toNat = w.toNat) : Tight w (.ok i) := by
  rintro j ⟨⟩
  exact BitVec.eq_of_toNat_eq h ▸ hi

theorem tightS_ok {i : Instr} {v h : Half} (hi : IsHalf i v) (hv : v.toNat = h.toNat) : TightS h (.ok i) := by
  rintro j ⟨⟩
  exact BitVec.eq_of_toNat_eq hv ▸ hi

theorem tight_ifZero {n : Nat} {b : BitVec n} {i : Instr} {v w : Word} (hi : IsWord i v)
    (h : b.toNat = 0 → v.toNat = w.toNat) : Tight w (ifZero b i) := by
  intro j hj
  obtain ⟨rfl, rfl⟩ := ifZero_ok hj
  exact tight_ok hi (h (by simp)) _ rfl

theorem tightS_ifZero {n : Nat} {b : BitVec n} {i : Instr} {v h : Half} (hi : IsHalf i v)
    (hb : b.toNat = 0 → v.toNat = h.toNat) : TightS h (ifZero b i) := by
  intro j hj
  obtain ⟨rfl, rfl⟩ := ifZero_ok hj
  exact tightS_ok hi (hb (by simp)) _ rfl

/-- The two variants of a format: the `cx` bit, and the fields before it, as numbers. -/
theorem tight_byForm {w : Word} {p : Decoded} {c : Cond → CReg → Decoded}
    (hp : w.toNat / 2 ^ 25 % 2 = 0 → Tight w p)
    (hc : ∀ cc, (condField cc (fieldAt w 19 3)).toNat = w.toNat / 2 ^ 19 % 2 ^ 7 → Tight w (c cc (fieldAt w 19 3))) :
    Tight w (byForm w p c) := by
  intro i hi
  rcases byForm_ok hi with ⟨hcx, hi⟩ | ⟨hcx, cc, hcc, hi⟩
  · exact hp (by simpa using congrArg BitVec.toNat hcx) i hi
  · have hcx' : w.toNat / 2 ^ 25 % 2 ≠ 0 := fun h => hcx (BitVec.eq_of_toNat_eq (by simpa using h))
    refine hc cc ?_ i hi
    simp only [condField, append_toNat, condBits_of_condOf hcc, fieldAt_toNat, BitVec.toNat_ofNat]
    omega

theorem tight_unconditional {w : Word} {d : Decoded} (hd : w.toNat / 2 ^ 25 % 2 = 0 → Tight w d) :
    Tight w (unconditional w d) := by
  intro i hi
  obtain ⟨hcx, hi⟩ := unconditional_ok hi
  exact hd (by simpa using congrArg BitVec.toNat hcx) i hi


section Formats
variable {w : Word} {h : Half} {n : Nat}

theorem tight_formatR3 {u : Reg → Reg → Reg → Instr} {c : Cond → CReg → Reg → Reg → Reg → Instr}
    (hop : opcode w = n) (hu : ∀ d a b, IsWord (u d a b) (wordR3 (BitVec.ofNat 6 n) d a b))
    (hc : ∀ cc k d a b, IsWord (c cc k d a b) (wordR3c (BitVec.ofNat 6 n) cc k d a b)) :
    Tight w (formatR3 u c w) := by
  refine tight_byForm (fun hcx => tight_ifZero (hu _ _ _) fun hz => ?_)
    fun cc hcc => tight_ifZero (hc cc _ _ _ _) fun hz => ?_
  · simp only [wordR3, opcode, toWord_toNat, append_toNat, fieldAt_toNat, BitVec.toNat_ofNat] at *
    omega
  · simp only [wordR3c, opcode, toWord_toNat, append_toNat, fieldAt_toNat, BitVec.toNat_ofNat] at *
    omega

theorem tight_formatR2 {u : Reg → Reg → Instr} {c : Cond → CReg → Reg → Reg → Instr}
    (hop : opcode w = n) (hu : ∀ d a, IsWord (u d a) (wordR2 (BitVec.ofNat 6 n) d a))
    (hc : ∀ cc k d a, IsWord (c cc k d a) (wordR2c (BitVec.ofNat 6 n) cc k d a)) :
    Tight w (formatR2 u c w) := by
  refine tight_byForm (fun hcx => tight_ifZero (hu _ _) fun hz => ?_)
    fun cc hcc => tight_ifZero (hc cc _ _ _) fun hz => ?_
  · simp only [wordR2, opcode, toWord_toNat, append_toNat, fieldAt_toNat, BitVec.toNat_ofNat] at *
    omega
  · simp only [wordR2c, opcode, toWord_toNat, append_toNat, fieldAt_toNat, BitVec.toNat_ofNat] at *
    omega

theorem tight_formatRD {u : Reg → Instr} {c : Cond → CReg → Reg → Instr}
    (hop : opcode w = n) (hu : ∀ d, IsWord (u d) (wordRD (BitVec.ofNat 6 n) d))
    (hc : ∀ cc k d, IsWord (c cc k d) (wordRDc (BitVec.ofNat 6 n) cc k d)) :
    Tight w (formatRD u c w) := by
  refine tight_byForm (fun hcx => tight_ifZero (hu _) fun hz => ?_)
    fun cc hcc => tight_ifZero (hc cc _ _) fun hz => ?_
  · simp only [wordRD, opcode, toWord_toNat, append_toNat, fieldAt_toNat, BitVec.toNat_ofNat] at *
    omega
  · simp only [wordRDc, opcode, toWord_toNat, append_toNat, fieldAt_toNat, BitVec.toNat_ofNat] at *
    omega

theorem tight_formatRS {u : Reg → Instr} {c : Cond → CReg → Reg → Instr}
    (hop : opcode w = n) (hu : ∀ a, IsWord (u a) (wordRS (BitVec.ofNat 6 n) a))
    (hc : ∀ cc k a, IsWord (c cc k a) (wordRSc (BitVec.ofNat 6 n) cc k a)) :
    Tight w (formatRS u c w) := by
  refine tight_byForm (fun hcx => tight_ifZero (hu _) fun hz => ?_)
    fun cc hcc => tight_ifZero (hc cc _ _) fun hz => ?_
  · simp only [wordRS, opcode, toWord_toNat, append_toNat, fieldAt_toNat, BitVec.toNat_ofNat] at *
    omega
  · simp only [wordRSc, opcode, toWord_toNat, append_toNat, fieldAt_toNat, BitVec.toNat_ofNat] at *
    omega

theorem tight_formatI {u : Reg → Reg → BitVec 15 → Instr} {c : Cond → CReg → Reg → Reg → BitVec 9 → Instr}
    (hop : opcode w = n) (hu : ∀ d a imm, IsWord (u d a imm) (wordI (BitVec.ofNat 6 n) d a imm))
    (hc : ∀ cc k d a imm, IsWord (c cc k d a imm) (wordIc (BitVec.ofNat 6 n) cc k d a imm)) :
    Tight w (formatI u c w) := by
  refine tight_byForm (fun hcx => tight_ok (hu _ _ _) ?_)
    fun cc hcc => tight_ok (hc cc _ _ _ _) ?_
  · simp only [wordI, opcode, toWord_toNat, append_toNat, fieldAt_toNat, BitVec.toNat_ofNat] at *
    omega
  · simp only [wordIc, opcode, toWord_toNat, append_toNat, fieldAt_toNat, BitVec.toNat_ofNat] at *
    omega

theorem tight_formatST {u : Reg → Reg → BitVec 15 → Instr} {c : Cond → CReg → Reg → Reg → BitVec 9 → Instr}
    (hop : opcode w = n) (hu : ∀ b a imm, IsWord (u b a imm) (wordST (BitVec.ofNat 6 n) b a imm))
    (hc : ∀ cc k b a imm, IsWord (c cc k b a imm) (wordSTc (BitVec.ofNat 6 n) cc k b a imm)) :
    Tight w (formatST u c w) := by
  refine tight_byForm (fun hcx => tight_ok (hu _ _ _) ?_)
    fun cc hcc => tight_ok (hc cc _ _ _ _) ?_
  · simp only [wordST, opcode, toWord_toNat, append_toNat, fieldAt_toNat, BitVec.toNat_ofNat] at *
    omega
  · simp only [wordSTc, opcode, toWord_toNat, append_toNat, fieldAt_toNat, BitVec.toNat_ofNat] at *
    omega

theorem tight_formatS6 {u : Reg → Reg → BitVec 6 → Instr} {c : Cond → CReg → Reg → Reg → BitVec 6 → Instr}
    (hop : opcode w = n) (hu : ∀ d a imm, IsWord (u d a imm) (wordS6 (BitVec.ofNat 6 n) d a imm))
    (hc : ∀ cc k d a imm, IsWord (c cc k d a imm) (wordS6c (BitVec.ofNat 6 n) cc k d a imm)) :
    Tight w (formatS6 u c w) := by
  refine tight_byForm (fun hcx => tight_ifZero (hu _ _ _) fun hz => ?_)
    fun cc hcc => tight_ifZero (hc cc _ _ _ _) fun hz => ?_
  · simp only [wordS6, opcode, toWord_toNat, append_toNat, fieldAt_toNat, BitVec.toNat_ofNat] at *
    omega
  · simp only [wordS6c, opcode, toWord_toNat, append_toNat, fieldAt_toNat, BitVec.toNat_ofNat] at *
    omega

theorem tight_formatS5 {u : Reg → Reg → BitVec 5 → Instr} {c : Cond → CReg → Reg → Reg → BitVec 5 → Instr}
    (hop : opcode w = n) (hu : ∀ d a imm, IsWord (u d a imm) (wordS5 (BitVec.ofNat 6 n) d a imm))
    (hc : ∀ cc k d a imm, IsWord (c cc k d a imm) (wordS5c (BitVec.ofNat 6 n) cc k d a imm)) :
    Tight w (formatS5 u c w) := by
  refine tight_byForm (fun hcx => tight_ifZero (hu _ _ _) fun hz => ?_)
    fun cc hcc => tight_ifZero (hc cc _ _ _ _) fun hz => ?_
  · simp only [wordS5, opcode, toWord_toNat, append_toNat, fieldAt_toNat, BitVec.toNat_ofNat] at *
    omega
  · simp only [wordS5c, opcode, toWord_toNat, append_toNat, fieldAt_toNat, BitVec.toNat_ofNat] at *
    omega

theorem tight_formatS2 {u : Reg → Reg → BitVec 2 → Instr} {c : Cond → CReg → Reg → Reg → BitVec 2 → Instr}
    (hop : opcode w = n) (hu : ∀ d a imm, IsWord (u d a imm) (wordS2 (BitVec.ofNat 6 n) d a imm))
    (hc : ∀ cc k d a imm, IsWord (c cc k d a imm) (wordS2c (BitVec.ofNat 6 n) cc k d a imm)) :
    Tight w (formatS2 u c w) := by
  refine tight_byForm (fun hcx => tight_ifZero (hu _ _ _) fun hz => ?_)
    fun cc hcc => tight_ifZero (hc cc _ _ _ _) fun hz => ?_
  · simp only [wordS2, opcode, toWord_toNat, append_toNat, fieldAt_toNat, BitVec.toNat_ofNat] at *
    omega
  · simp only [wordS2c, opcode, toWord_toNat, append_toNat, fieldAt_toNat, BitVec.toNat_ofNat] at *
    omega

theorem tight_formatS1 {u : Reg → Reg → BitVec 1 → Instr} {c : Cond → CReg → Reg → Reg → BitVec 1 → Instr}
    (hop : opcode w = n) (hu : ∀ d a imm, IsWord (u d a imm) (wordS1 (BitVec.ofNat 6 n) d a imm))
    (hc : ∀ cc k d a imm, IsWord (c cc k d a imm) (wordS1c (BitVec.ofNat 6 n) cc k d a imm)) :
    Tight w (formatS1 u c w) := by
  refine tight_byForm (fun hcx => tight_ifZero (hu _ _ _) fun hz => ?_)
    fun cc hcc => tight_ifZero (hc cc _ _ _ _) fun hz => ?_
  · simp only [wordS1, opcode, toWord_toNat, append_toNat, fieldAt_toNat, BitVec.toNat_ofNat] at *
    omega
  · simp only [wordS1c, opcode, toWord_toNat, append_toNat, fieldAt_toNat, BitVec.toNat_ofNat] at *
    omega

theorem tight_formatSC {u : Instr} {c : Cond → CReg → Instr}
    (hop : opcode w = n) (hu : IsWord u (wordSC (BitVec.ofNat 6 n)))
    (hc : ∀ cc k, IsWord (c cc k) (wordSCc (BitVec.ofNat 6 n) cc k)) :
    Tight w (formatSC u c w) := by
  refine tight_byForm (fun hcx => tight_ifZero hu fun hz => ?_)
    fun cc hcc => tight_ifZero (hc cc _) fun hz => ?_
  · simp only [wordSC, opcode, toWord_toNat, append_toNat, fieldAt_toNat, BitVec.toNat_ofNat] at *
    omega
  · simp only [wordSCc, opcode, toWord_toNat, append_toNat, fieldAt_toNat, BitVec.toNat_ofNat] at *
    omega

theorem tight_formatB {u : CReg → BitVec 22 → Instr} (hop : opcode w = n)
    (hu : ∀ k imm, IsWord (u k imm) (wordB (BitVec.ofNat 6 n) k imm)) : Tight w (formatB u w) := by
  refine tight_unconditional fun hcx => tight_ok (hu _ _) ?_
  simp only [wordB, opcode, toWord_toNat, append_toNat, fieldAt_toNat, BitVec.toNat_ofNat] at *
  omega

theorem tight_formatJ {u : BitVec 25 → Instr} (hop : opcode w = n)
    (hu : ∀ imm, IsWord (u imm) (wordJ (BitVec.ofNat 6 n) imm)) : Tight w (formatJ u w) := by
  refine tight_unconditional fun hcx => tight_ok (hu _) ?_
  simp only [wordJ, opcode, toWord_toNat, append_toNat, fieldAt_toNat, BitVec.toNat_ofNat] at *
  omega

theorem tight_formatCMP {u : CReg → Reg → Reg → Instr} (hop : opcode w = n)
    (hu : ∀ k a b, IsWord (u k a b) (wordCMP (BitVec.ofNat 6 n) k a b)) : Tight w (formatCMP u w) := by
  refine tight_unconditional fun hcx => tight_ifZero (hu _ _ _) fun hz => ?_
  simp only [wordCMP, opcode, toWord_toNat, append_toNat, fieldAt_toNat, BitVec.toNat_ofNat] at *
  omega

theorem tight_formatCMPI {u : CReg → Reg → BitVec 17 → Instr} (hop : opcode w = n)
    (hu : ∀ k a imm, IsWord (u k a imm) (wordCMPI (BitVec.ofNat 6 n) k a imm)) : Tight w (formatCMPI u w) := by
  refine tight_unconditional fun hcx => tight_ok (hu _ _ _) ?_
  simp only [wordCMPI, opcode, toWord_toNat, append_toNat, fieldAt_toNat, BitVec.toNat_ofNat] at *
  omega

theorem tight_formatLI {u : Reg → BitVec 16 → Instr} (hop : opcode w = n)
    (hu : ∀ d imm, IsWord (u d imm) (wordLI (BitVec.ofNat 6 n) d imm)) : Tight w (formatLI u w) := by
  refine tight_unconditional fun hcx => tight_ifZero (hu _ _) fun hz => ?_
  simp only [wordLI, opcode, toWord_toNat, append_toNat, fieldAt_toNat, BitVec.toNat_ofNat] at *
  omega

theorem tight_formatBFI {u : Reg → Reg → BitVec 11 → Instr} (hop : opcode w = n)
    (hu : ∀ d a imm, IsWord (u d a imm) (wordBFI (BitVec.ofNat 6 n) d a imm)) : Tight w (formatBFI u w) := by
  refine tight_unconditional fun hcx => tight_ifZero (hu _ _ _) fun hz => ?_
  simp only [wordBFI, opcode, toWord_toNat, append_toNat, fieldAt_toNat, BitVec.toNat_ofNat] at *
  omega

theorem tight_formatND {u : Reg → Instr} (hop : opcode w = n)
    (hu : ∀ d, IsWord (u d) (wordND (BitVec.ofNat 6 n) d)) : Tight w (formatND u w) := by
  refine tight_unconditional fun hcx => tight_ifZero (hu _) fun hz => ?_
  simp only [wordND, opcode, toWord_toNat, append_toNat, fieldAt_toNat, BitVec.toNat_ofNat] at *
  omega

theorem tight_formatNS {u : Reg → Instr} (hop : opcode w = n)
    (hu : ∀ a, IsWord (u a) (wordNS (BitVec.ofNat 6 n) a)) : Tight w (formatNS u w) := by
  refine tight_unconditional fun hcx => tight_ifZero (hu _) fun hz => ?_
  simp only [wordNS, opcode, toWord_toNat, append_toNat, fieldAt_toNat, BitVec.toNat_ofNat] at *
  omega

theorem tight_formatN2 {u : BitVec 2 → Instr} (hop : opcode w = n)
    (hu : ∀ imm, IsWord (u imm) (wordN2 (BitVec.ofNat 6 n) imm)) : Tight w (formatN2 u w) := by
  refine tight_unconditional fun hcx => tight_ifZero (hu _) fun hz => ?_
  simp only [wordN2, opcode, toWord_toNat, append_toNat, fieldAt_toNat, BitVec.toNat_ofNat] at *
  omega

theorem tight_formatN6 {u : BitVec 6 → Instr} (hop : opcode w = n)
    (hu : ∀ imm, IsWord (u imm) (wordN6 (BitVec.ofNat 6 n) imm)) : Tight w (formatN6 u w) := by
  refine tight_unconditional fun hcx => tight_ifZero (hu _) fun hz => ?_
  simp only [wordN6, opcode, toWord_toNat, append_toNat, fieldAt_toNat, BitVec.toNat_ofNat] at *
  omega

/-- The two names of one word, by its coprocessor register (R303, R305). -/
theorem isWord_ite {i j : Instr} {r : Reg} {f : Reg → Word} (h0 : IsWord i (f 0#5)) (h : IsWord j (f r)) :
    IsWord (if r = 0#5 then i else j) (f r) := by
  split
  · exact ‹r = 0#5› ▸ h0
  · exact h

theorem isHalf_ite {i j : Instr} {r : Reg} {f : Reg → Half} (h0 : IsHalf i (f 0#5)) (h : IsHalf j (f r)) :
    IsHalf (if r = 0#5 then i else j) (f r) := by
  split
  · exact ‹r = 0#5› ▸ h0
  · exact h

theorem tight_formatCPF {u : CopNum → Reg → Reg → Instr} {c : Cond → CReg → CopNum → Reg → Reg → Instr}
    {u0 : CopNum → Reg → Instr} {c0 : Cond → CReg → CopNum → Reg → Instr} (hop : opcode w = n)
    (hu : ∀ x d r, IsWord (u x d r) (wordCPF (BitVec.ofNat 6 n) x d r))
    (hc : ∀ cc k x d r, IsWord (c cc k x d r) (wordCPFc (BitVec.ofNat 6 n) cc k x d r))
    (hu0 : ∀ x d, IsWord (u0 x d) (wordCPF (BitVec.ofNat 6 n) x d 0#5))
    (hc0 : ∀ cc k x d, IsWord (c0 cc k x d) (wordCPFc (BitVec.ofNat 6 n) cc k x d 0#5)) :
    Tight w (formatCPF u c u0 c0 w) := by
  simp only [formatCPF]
  refine tight_byForm (fun hcx => ?_) fun cc hcc => ?_
  · refine tight_ifZero (isWord_ite (f := fun r => wordCPF _ _ _ r) (hu0 _ _) (hu _ _ _)) fun hz => ?_
    simp only [wordCPF, opcode, toWord_toNat, append_toNat, fieldAt_toNat, BitVec.toNat_ofNat] at *
    omega
  · refine tight_ifZero (isWord_ite (f := fun r => wordCPFc _ _ _ _ _ r) (hc0 cc _ _ _) (hc cc _ _ _ _)) fun hz => ?_
    simp only [wordCPFc, opcode, toWord_toNat, append_toNat, fieldAt_toNat, BitVec.toNat_ofNat] at *
    omega

theorem tight_formatCPT {u : CopNum → Reg → Reg → Instr} {c : Cond → CReg → CopNum → Reg → Reg → Instr}
    {u0 : CopNum → Reg → Instr} {c0 : Cond → CReg → CopNum → Reg → Instr} (hop : opcode w = n)
    (hu : ∀ x r a, IsWord (u x r a) (wordCPT (BitVec.ofNat 6 n) x r a))
    (hc : ∀ cc k x r a, IsWord (c cc k x r a) (wordCPTc (BitVec.ofNat 6 n) cc k x r a))
    (hu0 : ∀ x a, IsWord (u0 x a) (wordCPT (BitVec.ofNat 6 n) x 0#5 a))
    (hc0 : ∀ cc k x a, IsWord (c0 cc k x a) (wordCPTc (BitVec.ofNat 6 n) cc k x 0#5 a)) :
    Tight w (formatCPT u c u0 c0 w) := by
  simp only [formatCPT]
  refine tight_byForm (fun hcx => ?_) fun cc hcc => ?_
  · refine tight_ifZero (isWord_ite (f := fun r => wordCPT _ _ r _) (hu0 _ _) (hu _ _ _)) fun hz => ?_
    simp only [wordCPT, opcode, toWord_toNat, append_toNat, fieldAt_toNat, BitVec.toNat_ofNat] at *
    omega
  · refine tight_ifZero (isWord_ite (f := fun r => wordCPTc _ _ _ _ r _) (hc0 cc _ _ _) (hc cc _ _ _ _)) fun hz => ?_
    simp only [wordCPTc, opcode, toWord_toNat, append_toNat, fieldAt_toNat, BitVec.toNat_ofNat] at *
    omega

theorem tight_formatCOP {u : CopNum → BitVec 24 → Instr} (hop : opcode w = 18)
    (hu : ∀ x y, IsWord (u x y) (wordCOP x y)) : Tight w (formatCOP u w) := by
  refine tight_ok (hu _ _) ?_
  simp only [wordCOP, opcode, toWord_toNat, append_toNat, fieldAt_toNat, BitVec.toNat_ofNat] at *
  omega

/-- The word of a system instruction, by its `fn` (R112). -/
theorem wordSYS_toNat {fn : BitVec 3} (hop : opcode w = 60) (hcx : w.toNat / 2 ^ 25 % 2 = 0)
    (hfn : (fieldAt w 0 3).toNat = fn.toNat) (hz : (fieldAt w 3 22).toNat = 0) : (wordSYS fn).toNat = w.toNat := by
  simp only [wordSYS, opcode, toWord_toNat, append_toNat, fieldAt_toNat, BitVec.toNat_ofNat] at *
  omega

theorem tight_formatSYS (hop : opcode w = 60) : Tight w (formatSYS w) := by
  refine tight_unconditional fun hcx => ?_
  split
  case h_1 hfn | h_2 hfn | h_3 hfn | h_4 hfn | h_5 hfn | h_6 hfn =>
    exact tight_ifZero ⟨rfl, rfl⟩ (wordSYS_toNat hop hcx hfn)
  case h_7 => exact tight_error w _

theorem tight_format_r2 {u : RegS → RegS → Instr} (hop : opcodeS h = n)
    (hu : ∀ d a, IsHalf (u d a) (half_r2 (BitVec.ofNat 6 n) d a)) : TightS h (format_r2 u h) := by
  refine tightS_ifZero (hu _ _) fun hz => ?_
  simp only [half_r2, opcodeS, toHalf_toNat, append_toNat, fieldAt_toNat, BitVec.toNat_ofNat] at *
  omega

theorem tight_format_c2 {u : RegS → RegS → Instr} (hop : opcodeS h = n)
    (hu : ∀ a b, IsHalf (u a b) (half_c2 (BitVec.ofNat 6 n) a b)) : TightS h (format_c2 u h) := by
  refine tightS_ifZero (hu _ _) fun hz => ?_
  simp only [half_c2, opcodeS, toHalf_toNat, append_toNat, fieldAt_toNat, BitVec.toNat_ofNat] at *
  omega

theorem tight_format_rd {u : RegS → Instr} (hop : opcodeS h = n)
    (hu : ∀ d, IsHalf (u d) (half_rd (BitVec.ofNat 6 n) d)) : TightS h (format_rd u h) := by
  refine tightS_ifZero (hu _) fun hz => ?_
  simp only [half_rd, opcodeS, toHalf_toNat, append_toNat, fieldAt_toNat, BitVec.toNat_ofNat] at *
  omega

theorem tight_format_rs {u : RegS → Instr} (hop : opcodeS h = n)
    (hu : ∀ a, IsHalf (u a) (half_rs (BitVec.ofNat 6 n) a)) : TightS h (format_rs u h) := by
  refine tightS_ifZero (hu _) fun hz => ?_
  simp only [half_rs, opcodeS, toHalf_toNat, append_toNat, fieldAt_toNat, BitVec.toNat_ofNat] at *
  omega

theorem tight_format_i7 {u : RegS → BitVec 7 → Instr} (hop : opcodeS h = n)
    (hu : ∀ d imm, IsHalf (u d imm) (half_i7 (BitVec.ofNat 6 n) d imm)) : TightS h (format_i7 u h) := by
  refine tightS_ok (hu _ _) ?_
  simp only [half_i7, opcodeS, toHalf_toNat, append_toNat, fieldAt_toNat, BitVec.toNat_ofNat] at *
  omega

theorem tight_format_ci7 {u : RegS → BitVec 7 → Instr} (hop : opcodeS h = n)
    (hu : ∀ a imm, IsHalf (u a imm) (half_ci7 (BitVec.ofNat 6 n) a imm)) : TightS h (format_ci7 u h) := by
  refine tightS_ok (hu _ _) ?_
  simp only [half_ci7, opcodeS, toHalf_toNat, append_toNat, fieldAt_toNat, BitVec.toNat_ofNat] at *
  omega

theorem tight_format_m4 {u : RegS → RegS → BitVec 4 → Instr} (hop : opcodeS h = n)
    (hu : ∀ d a imm, IsHalf (u d a imm) (half_m4 (BitVec.ofNat 6 n) d a imm)) : TightS h (format_m4 u h) := by
  refine tightS_ok (hu _ _ _) ?_
  simp only [half_m4, opcodeS, toHalf_toNat, append_toNat, fieldAt_toNat, BitVec.toNat_ofNat] at *
  omega

theorem tight_format_st4 {u : RegS → RegS → BitVec 4 → Instr} (hop : opcodeS h = n)
    (hu : ∀ b a imm, IsHalf (u b a imm) (half_st4 (BitVec.ofNat 6 n) b a imm)) : TightS h (format_st4 u h) := by
  refine tightS_ok (hu _ _ _) ?_
  simp only [half_st4, opcodeS, toHalf_toNat, append_toNat, fieldAt_toNat, BitVec.toNat_ofNat] at *
  omega

theorem tight_format_s6 {u : RegS → BitVec 6 → Instr} (hop : opcodeS h = n)
    (hu : ∀ d imm, IsHalf (u d imm) (half_s6 (BitVec.ofNat 6 n) d imm)) : TightS h (format_s6 u h) := by
  refine tightS_ifZero (hu _ _) fun hz => ?_
  simp only [half_s6, opcodeS, toHalf_toNat, append_toNat, fieldAt_toNat, BitVec.toNat_ofNat] at *
  omega

theorem tight_format_s5 {u : RegS → BitVec 5 → Instr} (hop : opcodeS h = n)
    (hu : ∀ d imm, IsHalf (u d imm) (half_s5 (BitVec.ofNat 6 n) d imm)) : TightS h (format_s5 u h) := by
  refine tightS_ifZero (hu _ _) fun hz => ?_
  simp only [half_s5, opcodeS, toHalf_toNat, append_toNat, fieldAt_toNat, BitVec.toNat_ofNat] at *
  omega

theorem tight_format_x2 {u : RegS → RegS → BitVec 2 → Instr} (hop : opcodeS h = n)
    (hu : ∀ d a imm, IsHalf (u d a imm) (half_x2 (BitVec.ofNat 6 n) d a imm)) : TightS h (format_x2 u h) := by
  refine tightS_ifZero (hu _ _ _) fun hz => ?_
  simp only [half_x2, opcodeS, toHalf_toNat, append_toNat, fieldAt_toNat, BitVec.toNat_ofNat] at *
  omega

theorem tight_format_x1 {u : RegS → RegS → BitVec 1 → Instr} (hop : opcodeS h = n)
    (hu : ∀ d a imm, IsHalf (u d a imm) (half_x1 (BitVec.ofNat 6 n) d a imm)) : TightS h (format_x1 u h) := by
  refine tightS_ifZero (hu _ _ _) fun hz => ?_
  simp only [half_x1, opcodeS, toHalf_toNat, append_toNat, fieldAt_toNat, BitVec.toNat_ofNat] at *
  omega

theorem tight_format_b10 {u : BitVec 10 → Instr} (hop : opcodeS h = n)
    (hu : ∀ imm, IsHalf (u imm) (half_b10 (BitVec.ofNat 6 n) imm)) : TightS h (format_b10 u h) := by
  refine tightS_ok (hu _) ?_
  simp only [half_b10, opcodeS, toHalf_toNat, append_toNat, fieldAt_toNat, BitVec.toNat_ofNat] at *
  omega

theorem tight_format_n2 {u : BitVec 2 → Instr} (hop : opcodeS h = n)
    (hu : ∀ imm, IsHalf (u imm) (half_n2 (BitVec.ofNat 6 n) imm)) : TightS h (format_n2 u h) := by
  refine tightS_ifZero (hu _) fun hz => ?_
  simp only [half_n2, opcodeS, toHalf_toNat, append_toNat, fieldAt_toNat, BitVec.toNat_ofNat] at *
  omega

theorem tight_format_n6 {u : BitVec 6 → Instr} (hop : opcodeS h = n)
    (hu : ∀ imm, IsHalf (u imm) (half_n6 (BitVec.ofNat 6 n) imm)) : TightS h (format_n6 u h) := by
  refine tightS_ifZero (hu _) fun hz => ?_
  simp only [half_n6, opcodeS, toHalf_toNat, append_toNat, fieldAt_toNat, BitVec.toNat_ofNat] at *
  omega

theorem tight_format_sc {u : Instr} (hop : opcodeS h = n)
    (hu : IsHalf u (half_sc (BitVec.ofNat 6 n))) : TightS h (format_sc u h) := by
  refine tightS_ifZero hu fun hz => ?_
  simp only [half_sc, opcodeS, toHalf_toNat, append_toNat, fieldAt_toNat, BitVec.toNat_ofNat] at *
  omega

theorem tight_format_cpf {u : CopNum → RegS → Reg → Instr} {u0 : CopNum → RegS → Instr} (hop : opcodeS h = n)
    (hu : ∀ x d r, IsHalf (u x d r) (half_cpf (BitVec.ofNat 6 n) x d r))
    (hu0 : ∀ x d, IsHalf (u0 x d) (half_cpf (BitVec.ofNat 6 n) x d 0#5)) : TightS h (format_cpf u u0 h) := by
  refine tightS_ok (isHalf_ite (f := fun r => half_cpf _ _ _ r) (hu0 _ _) (hu _ _ _)) ?_
  simp only [half_cpf, opcodeS, toHalf_toNat, append_toNat, fieldAt_toNat, BitVec.toNat_ofNat] at *
  omega

theorem tight_format_cpt {u : CopNum → Reg → RegS → Instr} {u0 : CopNum → RegS → Instr} (hop : opcodeS h = n)
    (hu : ∀ x r a, IsHalf (u x r a) (half_cpt (BitVec.ofNat 6 n) x r a))
    (hu0 : ∀ x a, IsHalf (u0 x a) (half_cpt (BitVec.ofNat 6 n) x 0#5 a)) : TightS h (format_cpt u u0 h) := by
  refine tightS_ok (isHalf_ite (f := fun r => half_cpt _ _ r _) (hu0 _ _) (hu _ _ _)) ?_
  simp only [half_cpt, opcodeS, toHalf_toNat, append_toNat, fieldAt_toNat, BitVec.toNat_ofNat] at *
  omega

/-- The halfword of a system instruction, by its `fn` (R112). -/
theorem half_sys_toNat {fn : BitVec 3} (hop : opcodeS h = 60) (hfn : (fieldAt h 0 3).toNat = fn.toNat)
    (hz : (fieldAt h 3 7).toNat = 0) : (half_sys fn).toNat = h.toNat := by
  simp only [half_sys, opcodeS, toHalf_toNat, append_toNat, fieldAt_toNat, BitVec.toNat_ofNat] at *
  omega

theorem tight_format_sys (hop : opcodeS h = 60) : TightS h (format_sys h) := by
  unfold format_sys
  split
  case h_1 hfn | h_2 hfn | h_3 hfn | h_4 hfn | h_5 hfn | h_6 hfn =>
    exact tightS_ifZero ⟨rfl, rfl⟩ (half_sys_toNat hop hfn)
  case h_7 => exact tightS_error h _

end Formats

/-- The opcode table of 32-bit mode, format by format; the alternative `h_m` of the decoder is that of opcode `m - 1`. -/
theorem tight_decode32 (w : Word) : Tight w (decode32 w) := by
  unfold decode32
  split
  case h_1 hop | h_4 hop | h_5 hop | h_17 hop | h_18 hop | h_21 hop | h_36 hop | h_37 hop | h_38 hop | h_39 hop |
      h_40 hop | h_41 hop | h_43 hop | h_48 hop | h_50 hop | h_52 hop | h_54 hop | h_57 hop | h_58 hop | h_60 hop =>
    exact tight_formatR3 hop (fun _ _ _ => ⟨rfl, rfl⟩) (fun _ _ _ _ _ => ⟨rfl, rfl⟩)
  case h_2 hop | h_3 hop | h_6 hop | h_28 hop | h_35 hop | h_44 hop =>
    exact tight_formatI hop (fun _ _ _ => ⟨rfl, rfl⟩) (fun _ _ _ _ _ => ⟨rfl, rfl⟩)
  case h_7 hop | h_8 hop | h_9 hop | h_10 hop | h_11 hop | h_12 hop | h_13 hop =>
    exact tight_formatB hop (fun _ _ => ⟨rfl, rfl⟩)
  case h_14 hop =>
    exact tight_formatN2 hop (fun _ => ⟨rfl, rfl⟩)
  case h_15 hop =>
    exact tight_formatCMP hop (fun _ _ _ => ⟨rfl, rfl⟩)
  case h_16 hop =>
    exact tight_formatCMPI hop (fun _ _ _ => ⟨rfl, rfl⟩)
  case h_19 hop => exact tight_formatCOP hop fun _ _ => ⟨rfl, rfl⟩
  case h_20 hop =>
    exact tight_formatS2 hop (fun _ _ _ => ⟨rfl, rfl⟩) (fun _ _ _ _ _ => ⟨rfl, rfl⟩)
  case h_22 hop =>
    exact tight_formatBFI hop (fun _ _ _ => ⟨rfl, rfl⟩)
  case h_23 hop =>
    exact tight_formatS1 hop (fun _ _ _ => ⟨rfl, rfl⟩) (fun _ _ _ _ _ => ⟨rfl, rfl⟩)
  case h_24 hop | h_26 hop =>
    exact tight_formatJ hop (fun _ => ⟨rfl, rfl⟩)
  case h_25 hop | h_27 hop =>
    exact tight_formatRS hop (fun _ => ⟨rfl, rfl⟩) (fun _ _ _ => ⟨rfl, rfl⟩)
  case h_29 hop | h_30 hop =>
    exact tight_formatLI hop (fun _ _ => ⟨rfl, rfl⟩)
  case h_31 hop | h_42 hop =>
    exact tight_formatR2 hop (fun _ _ => ⟨rfl, rfl⟩) (fun _ _ _ _ => ⟨rfl, rfl⟩)
  case h_32 hop =>
    exact tight_formatCPF hop (fun _ _ _ => ⟨rfl, rfl⟩) (fun _ _ _ _ _ => ⟨rfl, rfl⟩)
      (fun _ _ => ⟨rfl, rfl⟩) (fun _ _ _ _ => ⟨rfl, rfl⟩)
  case h_33 hop =>
    exact tight_formatCPT hop (fun _ _ _ => ⟨rfl, rfl⟩) (fun _ _ _ _ _ => ⟨rfl, rfl⟩)
      (fun _ _ => ⟨rfl, rfl⟩) (fun _ _ _ _ => ⟨rfl, rfl⟩)
  case h_34 hop =>
    exact tight_formatRD hop (fun _ => ⟨rfl, rfl⟩) (fun _ _ _ => ⟨rfl, rfl⟩)
  case h_45 hop =>
    exact tight_formatNS hop (fun _ => ⟨rfl, rfl⟩)
  case h_46 hop =>
    exact tight_formatSC hop ⟨rfl, rfl⟩ (fun _ _ => ⟨rfl, rfl⟩)
  case h_47 hop =>
    exact tight_formatND hop (fun _ => ⟨rfl, rfl⟩)
  case h_49 hop =>
    exact tight_formatS5 hop (fun _ _ _ => ⟨rfl, rfl⟩) (fun _ _ _ _ _ => ⟨rfl, rfl⟩)
  case h_51 hop | h_53 hop | h_55 hop =>
    exact tight_formatS6 hop (fun _ _ _ => ⟨rfl, rfl⟩) (fun _ _ _ _ _ => ⟨rfl, rfl⟩)
  case h_56 hop =>
    exact tight_formatST hop (fun _ _ _ => ⟨rfl, rfl⟩) (fun _ _ _ _ _ => ⟨rfl, rfl⟩)
  case h_59 hop =>
    exact tight_formatN6 hop (fun _ => ⟨rfl, rfl⟩)
  case h_61 hop => exact tight_formatSYS hop
  case h_62 => exact tight_error w _

/-- The opcode table of 16-bit mode. -/
theorem tight_decode16 (h : Half) : TightS h (decode16 h) := by
  unfold decode16
  split
  case h_1 hop | h_4 hop | h_5 hop | h_17 hop | h_18 hop | h_21 hop | h_31 hop | h_36 hop | h_37 hop | h_38 hop |
      h_39 hop | h_40 hop | h_41 hop | h_42 hop | h_43 hop | h_48 hop | h_50 hop | h_52 hop | h_54 hop | h_57 hop |
      h_58 hop | h_60 hop =>
    exact tight_format_r2 hop (fun _ _ => ⟨rfl, rfl⟩)
  case h_2 hop | h_3 hop | h_6 hop | h_35 hop | h_44 hop =>
    exact tight_format_i7 hop (fun _ _ => ⟨rfl, rfl⟩)
  case h_7 hop | h_8 hop | h_9 hop | h_10 hop | h_11 hop | h_12 hop | h_13 hop | h_24 hop | h_26 hop =>
    exact tight_format_b10 hop (fun _ => ⟨rfl, rfl⟩)
  case h_14 hop =>
    exact tight_format_n2 hop (fun _ => ⟨rfl, rfl⟩)
  case h_15 hop =>
    exact tight_format_c2 hop (fun _ _ => ⟨rfl, rfl⟩)
  case h_16 hop =>
    exact tight_format_ci7 hop (fun _ _ => ⟨rfl, rfl⟩)
  case h_19 | h_22 | h_29 | h_30 | h_62 => exact tightS_error h _
  case h_20 hop =>
    exact tight_format_x2 hop (fun _ _ _ => ⟨rfl, rfl⟩)
  case h_23 hop =>
    exact tight_format_x1 hop (fun _ _ _ => ⟨rfl, rfl⟩)
  case h_25 hop | h_27 hop | h_45 hop =>
    exact tight_format_rs hop (fun _ => ⟨rfl, rfl⟩)
  case h_28 hop =>
    exact tight_format_m4 hop (fun _ _ _ => ⟨rfl, rfl⟩)
  case h_32 hop => exact tight_format_cpf hop (fun _ _ _ => ⟨rfl, rfl⟩) (fun _ _ => ⟨rfl, rfl⟩)
  case h_33 hop => exact tight_format_cpt hop (fun _ _ _ => ⟨rfl, rfl⟩) (fun _ _ => ⟨rfl, rfl⟩)
  case h_34 hop | h_47 hop =>
    exact tight_format_rd hop (fun _ => ⟨rfl, rfl⟩)
  case h_46 hop =>
    exact tight_format_sc hop ⟨rfl, rfl⟩
  case h_49 hop =>
    exact tight_format_s5 hop (fun _ _ => ⟨rfl, rfl⟩)
  case h_51 hop | h_53 hop | h_55 hop =>
    exact tight_format_s6 hop (fun _ _ => ⟨rfl, rfl⟩)
  case h_56 hop =>
    exact tight_format_st4 hop (fun _ _ _ => ⟨rfl, rfl⟩)
  case h_59 hop =>
    exact tight_format_n6 hop (fun _ => ⟨rfl, rfl⟩)
  case h_61 hop => exact tight_format_sys hop

/-- Settles O2: what is decoded is a word of the mode, and both opcode tables are tight. -/
theorem encodeDecode : Obligations.EncodeDecode := by
  unfold Obligations.EncodeDecode
  intro il bytes i hi
  rcases decode_ok hi with ⟨rfl, w, rfl, hw⟩ | ⟨rfl, h, rfl, hh⟩
  · obtain ⟨hmode, hcode⟩ := tight_decode32 w i hw
    exact ⟨hmode, by rw [encode, hcode, Code.bytes]⟩
  · obtain ⟨hmode, hcode⟩ := tight_decode16 h i hh
    exact ⟨hmode, by rw [encode, hcode, Code.bytes]⟩

end Sys2Proof
end

section
/-! PROOFS. The illegal words that R120 names by their fields: which words of each class a decoder meets, and what the `cx` bit
and the `cond` field decide before any other field is looked at. -/

namespace Sys2Proof

/-- A decoder rejects. -/
def Rejects (d : Decoded) : Prop := ∃ why, d = .error why

theorem rejects_error (why : Illegal) : Rejects (.error why) := ⟨why, rfl⟩

/-- The `cx` bit of a word. -/
theorem cx_ne_zero {w : Word} (h : w.getLsbD 25 = true) : fieldAt w 25 1 ≠ 0#1 := by
  intro h0
  have hbit := fieldAt_getLsbD w 25 1 0
  rw [h0, Nat.add_zero, h] at hbit
  exact absurd hbit (by decide)

/-- A word with `cx` = 1 and `cond` = 7, in a format with both variants (R111). -/
theorem rejects_byForm {w : Word} {p : Decoded} {c : Cond → CReg → Decoded} (hcx : w.getLsbD 25 = true)
    (hcond : w.toNat / 2 ^ 22 % 8 = 7) : Rejects (byForm w p c) := by
  have hnone : condOf (fieldAt w 22 3) = none := by
    rw [show fieldAt w 22 3 = 7#3 from BitVec.eq_of_toNat_eq (by simpa using hcond)]
    rfl
  rw [byForm, if_neg (cx_ne_zero hcx), hnone]
  exact rejects_error _

/-- A word with `cx` = 1 in a format with no conditional variant (R101). -/
theorem rejects_unconditional {w : Word} {d : Decoded} (hcx : w.getLsbD 25 = true) : Rejects (unconditional w d) := by
  rw [unconditional, if_neg (cx_ne_zero hcx)]
  exact rejects_error _

/-- The opcodes past the table of 32-bit mode (R110). -/
theorem rejects_decode32_opcode {w : Word} (h : 61 ≤ opcode w) : Rejects (decode32 w) := by
  unfold decode32
  split
  case h_62 => exact rejects_error _
  all_goals omega

/-- The opcodes past the table of 16-bit mode, and those of 32-bit mode only (R17, R110). -/
theorem rejects_decode16_opcode {h : Half} (ho : 61 ≤ opcodeS h ∨ opcodeS h ∈ [18, 21, 28, 29]) :
    Rejects (decode16 h) := by
  simp only [List.mem_cons, List.not_mem_nil, or_false] at ho
  unfold decode16
  split
  case h_19 | h_22 | h_29 | h_30 | h_62 => exact rejects_error _
  all_goals omega

/-- The numbers of `fn` that name no system instruction (R112). -/
theorem rejects_decode32_fn {w : Word} (h : opcode w = 60) (hfn : 6 ≤ (fieldAt w 0 3).toNat) :
    Rejects (decode32 w) := by
  rw [decode32, h]
  show Rejects (unconditional w _)
  unfold unconditional
  split
  · split
    case h_7 => exact rejects_error _
    all_goals omega
  · exact rejects_error _

theorem rejects_decode16_fn {h : Half} (ho : opcodeS h = 60) (hfn : 6 ≤ (fieldAt h 0 3).toNat) :
    Rejects (decode16 h) := by
  rw [decode16, ho]
  show Rejects (format_sys h)
  unfold format_sys
  split
  case h_7 => exact rejects_error _
  all_goals omega

/-- `cond` = 7 behind `cx` = 1: every format but that of `cop` looks at `cx` first, and either has no conditional variant or
looks at `cond` next. -/
theorem rejects_decode32_cond {w : Word} (ho : opcode w ≠ 18) (hcx : w.getLsbD 25 = true)
    (hcond : w.toNat / 2 ^ 22 % 8 = 7) : Rejects (decode32 w) := by
  unfold decode32
  split
  case h_7 | h_8 | h_9 | h_10 | h_11 | h_12 | h_13 | h_14 | h_15 | h_16 | h_22 | h_24 | h_26 | h_29 | h_30 | h_45 |
      h_47 | h_59 | h_61 =>
    exact rejects_unconditional hcx
  case h_19 h => exact absurd h ho
  case h_32 =>
    simp only [formatCPF]
    exact rejects_byForm hcx hcond
  case h_33 =>
    simp only [formatCPT]
    exact rejects_byForm hcx hcond
  case h_62 => exact rejects_error _
  all_goals exact rejects_byForm hcx hcond

/-- `cx` = 1 at the opcodes with no conditional form. -/
theorem rejects_decode32_cx {w : Word}
    (ho : opcode w ∈ [6, 7, 8, 9, 10, 11, 12, 13, 14, 15, 21, 23, 25, 28, 29, 44, 46, 58, 60])
    (hcx : w.getLsbD 25 = true) : Rejects (decode32 w) := by
  simp only [List.mem_cons, List.not_mem_nil, or_false] at ho
  rcases ho with h | h | h | h | h | h | h | h | h | h | h | h | h | h | h | h | h | h | h <;>
  · rw [decode32, h]
    exact rejects_unconditional hcx

/-- Settles O4, class by class. -/
theorem illegalWordsRejected : Obligations.IllegalWordsRejected := by
  unfold Obligations.IllegalWordsRejected
  refine ⟨fun w hw => ?_, fun h hh => ?_⟩
  · have ho : opcode w = w.toNat / 2 ^ 26 := by
      have := w.isLt
      simp only [opcode, Machine.fieldAt_toNat]
      omega
    have hfn : (fieldAt w 0 3).toNat = w.toNat % 8 := by simp
    rw [← ho] at hw
    rw [decode_bytesOfWord]
    rcases hw with h | ⟨h, hf⟩ | ⟨h, hcx, hcond⟩ | ⟨h, hcx⟩
    · exact rejects_decode32_opcode h
    · exact rejects_decode32_fn h (hfn ▸ hf)
    · exact rejects_decode32_cond h hcx hcond
    · exact rejects_decode32_cx h hcx
  · have ho : opcodeS h = h.toNat / 2 ^ 10 := by
      have := h.isLt
      simp only [opcodeS, Machine.fieldAt_toNat]
      omega
    have hfn : (fieldAt h 0 3).toNat = h.toNat % 8 := by simp
    rw [← ho] at hh
    rw [decode_bytesOfHalf]
    rcases hh with hh | hh | ⟨hh, hf⟩
    · exact rejects_decode16_opcode (.inl hh)
    · exact rejects_decode16_opcode (.inr hh)
    · exact rejects_decode16_fn hh (hfn ▸ hf)

end Sys2Proof
end

section
/-! PROOFS. Every instruction is the shared step of R231 around its own rule, and the rule of a conditional form is guarded by
its condition (R232). The rules of all instructions stand in one table here (`ruleOf`), tied to `exec` once (`exec_eq`), so
that what happens to an instruction that is executed, skipped or refused is said once for all of them. -/

namespace Sys2Proof.Machine

/-- The rule of an instruction, the condition of a conditional form left aside; `latch` is the latch as the instruction finds
it, which `mulhi` alone reads. -/
def ruleOf (latch : Option Word) : Instr → State → Effect
  | .add dreg sreg1 sreg2 | .addCond _ _ dreg sreg1 sreg2 => addRule dreg sreg1 sreg2
  | .addShort dr sr => addRule (wide dr) (wide sr) (wide dr)
  | .addi dreg sreg1 imm | .addiCond _ _ dreg sreg1 imm => addiRule dreg sreg1 (sextImm imm)
  | .addiShort dr imm => addiRule (wide dr) (wide dr) (sextImm imm)
  | .addiu dreg sreg1 imm | .addiuCond _ _ dreg sreg1 imm => addiuRule dreg sreg1 (zextImm imm)
  | .addiuShort dr imm => addiuRule (wide dr) (wide dr) (zextImm imm)
  | .addu dreg sreg1 sreg2 | .adduCond _ _ dreg sreg1 sreg2 => adduRule dreg sreg1 sreg2
  | .adduShort dr sr => adduRule (wide dr) (wide sr) (wide dr)
  | .and dreg sreg1 sreg2 | .andCond _ _ dreg sreg1 sreg2 => andRule dreg sreg1 sreg2
  | .andShort dr sr => andRule (wide dr) (wide sr) (wide dr)
  | .andi dreg sreg1 imm | .andiCond _ _ dreg sreg1 imm => andiRule dreg sreg1 (zextImm imm)
  | .andiShort dr imm => andiRule (wide dr) (wide dr) (zextImm imm)
  | .bc creg imm => bcRule creg imm
  | .bcShort imm => bcRule 0#3 imm
  | .begt creg imm => begtRule creg imm
  | .begtShort imm => begtRule 0#3 imm
  | .belt creg imm => beltRule creg imm
  | .beltShort imm => beltRule 0#3 imm
  | .beq creg imm => beqRule creg imm
  | .beqShort imm => beqRule 0#3 imm
  | .bgt creg imm => bgtRule creg imm
  | .bgtShort imm => bgtRule 0#3 imm
  | .blt creg imm => bltRule creg imm
  | .bltShort imm => bltRule 0#3 imm
  | .bne creg imm => bneRule creg imm
  | .bneShort imm => bneRule 0#3 imm
  | .chrs imm | .chrsShort imm => chrsRule imm
  | .cmp creg sreg1 sreg2 => cmpRule creg sreg1 sreg2
  | .cmpShort sr1 sr2 => cmpRule 0#3 (wide sr1) (wide sr2)
  | .cmpi creg sreg1 imm => cmpiRule creg sreg1 (sextImm imm)
  | .cmpiShort sr imm => cmpiRule 0#3 (wide sr) (sextImm imm)
  | .conb dreg sreg1 sreg2 | .conbCond _ _ dreg sreg1 sreg2 => conbRule dreg sreg1 sreg2
  | .conbShort dr sr => conbRule (wide dr) (wide sr) (wide dr)
  | .conh dreg sreg1 sreg2 | .conhCond _ _ dreg sreg1 sreg2 => conhRule dreg sreg1 sreg2
  | .conhShort dr sr => conhRule (wide dr) (wide sr) (wide dr)
  | .cop imm1 imm2 => copRule imm1 imm2
  | .di | .diShort => diRule
  | .ei | .eiShort => eiRule
  | .exb dreg sreg1 imm | .exbCond _ _ dreg sreg1 imm => exbRule dreg sreg1 imm
  | .exbShort dr sr imm => exbRule (wide dr) (wide sr) imm
  | .exbf dreg sreg1 sreg2 | .exbfCond _ _ dreg sreg1 sreg2 => exbfRule dreg sreg1 sreg2
  | .exbfShort dr sr => exbfRule (wide dr) (wide sr) (wide dr)
  | .exbfi dreg sreg1 imm => exbfiRule dreg sreg1 imm
  | .exh dreg sreg1 imm | .exhCond _ _ dreg sreg1 imm => exhRule dreg sreg1 imm
  | .exhShort dr sr imm => exhRule (wide dr) (wide sr) imm
  | .jal imm | .jalShort imm => jalRule imm
  | .jalr sreg1 | .jalrCond _ _ sreg1 => jalrRule sreg1
  | .jalrShort sr => jalrRule (wide sr)
  | .jmp imm | .jmpShort imm => jmpRule imm
  | .jmpr sreg1 | .jmprCond _ _ sreg1 => jmprRule sreg1
  | .jmprShort sr => jmprRule (wide sr)
  | .ld dreg sreg1 imm | .ldCond _ _ dreg sreg1 imm => ldRule dreg sreg1 (sextImm imm)
  | .ldShort dr sr imm => ldRule (wide dr) (wide sr) (sextImm imm)
  | .lli dreg imm => lliRule dreg imm
  | .lui dreg imm => luiRule dreg imm
  | .mov dreg sreg1 | .movCond _ _ dreg sreg1 => movRule dreg sreg1
  | .movShort dr sr => movRule (wide dr) (wide sr)
  | .movcfc cpn dreg | .movcfcCond _ _ cpn dreg => movcfcRule cpn dreg
  | .movcfcShort cpn dr => movcfcRule cpn (wide dr)
  | .movctc cpn sreg1 | .movctcCond _ _ cpn sreg1 => movctcRule cpn sreg1
  | .movctcShort cpn sr => movctcRule cpn (wide sr)
  | .movdfc cpn dreg cpSreg | .movdfcCond _ _ cpn dreg cpSreg => movdfcRule cpn dreg cpSreg
  | .movdfcShort cpn dr cpSreg => movdfcRule cpn (wide dr) cpSreg
  | .movdtc cpn cpDreg sreg1 | .movdtcCond _ _ cpn cpDreg sreg1 => movdtcRule cpn cpDreg sreg1
  | .movdtcShort cpn cpDreg sr => movdtcRule cpn cpDreg (wide sr)
  | .mulhi dreg | .mulhiCond _ _ dreg => mulhiRule dreg latch
  | .mulhiShort dr => mulhiRule (wide dr) latch
  | .muli dreg sreg1 imm | .muliCond _ _ dreg sreg1 imm => muliRule dreg sreg1 (sextImm imm)
  | .muliShort dr imm => muliRule (wide dr) (wide dr) (sextImm imm)
  | .muls dreg sreg1 sreg2 | .mulsCond _ _ dreg sreg1 sreg2 => mulsRule dreg sreg1 sreg2
  | .mulsShort dr sr => mulsRule (wide dr) (wide sr) (wide dr)
  | .muls16 dreg sreg1 sreg2 | .muls16Cond _ _ dreg sreg1 sreg2 => muls16Rule dreg sreg1 sreg2
  | .muls16Short dr sr => muls16Rule (wide dr) (wide sr) (wide dr)
  | .mulu dreg sreg1 sreg2 | .muluCond _ _ dreg sreg1 sreg2 => muluRule dreg sreg1 sreg2
  | .muluShort dr sr => muluRule (wide dr) (wide sr) (wide dr)
  | .mulu16 dreg sreg1 sreg2 | .mulu16Cond _ _ dreg sreg1 sreg2 => mulu16Rule dreg sreg1 sreg2
  | .mulu16Short dr sr => mulu16Rule (wide dr) (wide sr) (wide dr)
  | .mulus dreg sreg1 sreg2 | .mulusCond _ _ dreg sreg1 sreg2 => mulusRule dreg sreg1 sreg2
  | .mulusShort dr sr => mulusRule (wide dr) (wide sr) (wide dr)
  | .mulus16 dreg sreg1 sreg2 | .mulus16Cond _ _ dreg sreg1 sreg2 => mulus16Rule dreg sreg1 sreg2
  | .mulus16Short dr sr => mulus16Rule (wide dr) (wide sr) (wide dr)
  | .nop | .nopShort => nopRule
  | .not dreg sreg1 | .notCond _ _ dreg sreg1 => notRule dreg sreg1
  | .notShort dr sr => notRule (wide dr) (wide sr)
  | .or dreg sreg1 sreg2 | .orCond _ _ dreg sreg1 sreg2 => orRule dreg sreg1 sreg2
  | .orShort dr sr => orRule (wide dr) (wide sr) (wide dr)
  | .ori dreg sreg1 imm | .oriCond _ _ dreg sreg1 imm => oriRule dreg sreg1 (zextImm imm)
  | .oriShort dr imm => oriRule (wide dr) (wide dr) (zextImm imm)
  | .rcon sreg1 => rconRule sreg1
  | .rconShort sr => rconRule (wide sr)
  | .reti | .retiShort => retiRule
  | .retu | .retuShort => retuRule
  | .scall | .scallCond _ _ | .scallShort => scallRule
  | .scon dreg => sconRule dreg
  | .sconShort dr => sconRule (wide dr)
  | .sext dreg sreg1 sreg2 | .sextCond _ _ dreg sreg1 sreg2 => sextRule dreg sreg1 sreg2
  | .sextShort dr sr => sextRule (wide dr) (wide sr) (wide dr)
  | .sexti dreg sreg1 imm | .sextiCond _ _ dreg sreg1 imm => sextiRule dreg sreg1 imm
  | .sextiShort dr imm => sextiRule (wide dr) (wide dr) imm
  | .sll dreg sreg1 sreg2 | .sllCond _ _ dreg sreg1 sreg2 => sllRule dreg sreg1 sreg2
  | .sllShort dr sr => sllRule (wide dr) (wide sr) (wide dr)
  | .slli dreg sreg1 imm | .slliCond _ _ dreg sreg1 imm => slliRule dreg sreg1 imm
  | .slliShort dr imm => slliRule (wide dr) (wide dr) imm
  | .sra dreg sreg1 sreg2 | .sraCond _ _ dreg sreg1 sreg2 => sraRule dreg sreg1 sreg2
  | .sraShort dr sr => sraRule (wide dr) (wide sr) (wide dr)
  | .srai dreg sreg1 imm | .sraiCond _ _ dreg sreg1 imm => sraiRule dreg sreg1 imm
  | .sraiShort dr imm => sraiRule (wide dr) (wide dr) imm
  | .srl dreg sreg1 sreg2 | .srlCond _ _ dreg sreg1 sreg2 => srlRule dreg sreg1 sreg2
  | .srlShort dr sr => srlRule (wide dr) (wide sr) (wide dr)
  | .srli dreg sreg1 imm | .srliCond _ _ dreg sreg1 imm => srliRule dreg sreg1 imm
  | .srliShort dr imm => srliRule (wide dr) (wide dr) imm
  | .st sreg2 sreg1 imm | .stCond _ _ sreg2 sreg1 imm => stRule sreg2 sreg1 (sextImm imm)
  | .stShort sr2 sr1 imm => stRule (wide sr2) (wide sr1) (sextImm imm)
  | .sub dreg sreg1 sreg2 | .subCond _ _ dreg sreg1 sreg2 => subRule dreg sreg1 sreg2
  | .subShort dr sr => subRule (wide dr) (wide sr) (wide dr)
  | .subu dreg sreg1 sreg2 | .subuCond _ _ dreg sreg1 sreg2 => subuRule dreg sreg1 sreg2
  | .subuShort dr sr => subuRule (wide dr) (wide sr) (wide dr)
  | .swm imm | .swmShort imm => swmRule imm
  | .trap | .trapShort => trapRule
  | .xor dreg sreg1 sreg2 | .xorCond _ _ dreg sreg1 sreg2 => xorRule dreg sreg1 sreg2
  | .xorShort dr sr => xorRule (wide dr) (wide sr) (wide dr)

/-- What a conditional form does where its condition is false (R232, R234 a). -/
def skipOf (i : Instr) : State → State :=
  match i.slotRole with
  | .bearing => fun t => t.transfer none none (isSystemCall i)
  | .plain | .filler => id

/-- A rule behind the condition of `i`, if it has one. -/
def guarded (i : Instr) (body : State → Effect) : State → Effect :=
  match i.condition? with
  | none => body
  | some (cc, k) => ifCond cc k (skipOf i) body

/-- The meaning of every instruction, in one equation. -/
theorem exec_eq (i : Instr) (s : State) : exec i s = runInstr i.slotRole (guarded i (ruleOf s.mulhi i)) s := by
  cases i <;> rfl

theorem guarded_none {i : Instr} (h : i.condition? = none) (body : State → Effect) : guarded i body = body := by
  simp only [guarded, h]

theorem guarded_some {i : Instr} {cc : Cond} {k : CReg} (h : i.condition? = some (cc, k)) (body : State → Effect) :
    guarded i body = ifCond cc k (skipOf i) body := by
  simp only [guarded, h]

/-! ### An instruction that gets to its rule -/

section Executed
variable {i : Instr} {s u : State}

/-- `Executes` is where the slot admits the instruction and the guard lets its rule run. -/
theorem guarded_of_executes (he : Executes i s = true) (body : State → Effect) :
    slotCheck i.slotRole s.pend = none ∧ guarded i body s.opened = body s.opened := by
  obtain ⟨hc, hh⟩ := executes_iff.1 he
  refine ⟨hc, ?_⟩
  cases hi : i.condition? with
  | none => rw [guarded_none hi]
  | some p =>
    obtain ⟨cc, k⟩ := p
    rw [guarded_some hi, ifCond_true (by simpa using hh cc k hi)]

theorem exec_done (he : Executes i s = true) (h : ruleOf s.mulhi i s.opened = .done u) : exec i s = .next (s.close u) := by
  obtain ⟨hc, hg⟩ := guarded_of_executes he (ruleOf s.mulhi i)
  exact (exec_eq i s).trans (runInstr_done hc (hg.trans h))

theorem exec_raise {e : Exc} (he : Executes i s = true) (hp : s.pend = none) (h : ruleOf s.mulhi i s.opened = .raise e) :
    exec i s = .next (enterException e s) := by
  obtain ⟨-, hg⟩ := guarded_of_executes he (ruleOf s.mulhi i)
  exact (exec_eq i s).trans (runInstr_raise hp (hg.trans h))

theorem exec_raise_slot {e : Exc} (he : Executes i s = true) (hp : s.pend ≠ none)
    (h : ruleOf s.mulhi i s.opened = .raise e) : exec i s = .refused .exceptionInSlot := by
  obtain ⟨hc, hg⟩ := guarded_of_executes he (ruleOf s.mulhi i)
  exact (exec_eq i s).trans (runInstr_raise_slot hc (Option.isSome_iff_ne_none.2 hp) (hg.trans h))

theorem exec_fault {f : Fault} (he : Executes i s = true) (h : ruleOf s.mulhi i s.opened = .fault f) :
    exec i s = .fault f := by
  obtain ⟨hc, hg⟩ := guarded_of_executes he (ruleOf s.mulhi i)
  exact (exec_eq i s).trans (runInstr_fault hc (hg.trans h))

theorem exec_refuse {r : Refusal} (he : Executes i s = true) (h : ruleOf s.mulhi i s.opened = .refuse r) :
    exec i s = .refused r := by
  obtain ⟨hc, hg⟩ := guarded_of_executes he (ruleOf s.mulhi i)
  exact (exec_eq i s).trans (runInstr_refuse hc (hg.trans h))

/-- An instruction whose rule does not look at the latch runs that rule. -/
theorem runsRule_of {body : State → Effect} (h : ∀ latch, ruleOf latch i = body) : RunsRule i body :=
  fun s u he hb => exec_done he (by rw [h]; exact hb)

end Executed

/-! ### A conditional form that does not get to its rule -/

section Conditional
variable {i : Instr} {s : State} {cc : Cond} {k : CReg}

theorem exec_skipped (hi : i.condition? = some (cc, k)) (hf : fitsSlot i s = true)
    (hc : condHolds cc (s.creg k) = some false) : exec i s = .next (s.close (skipOf i s.opened)) := by
  rw [exec_eq, guarded_some hi]
  exact runInstr_done (fitsSlot_iff.1 hf) (ifCond_false (by simpa using hc))

theorem exec_inconsistent (hi : i.condition? = some (cc, k)) (hf : fitsSlot i s = true)
    (hc : condHolds cc (s.creg k) = none) : exec i s = .refused .conditionOnInconsistentFlags := by
  rw [exec_eq, guarded_some hi]
  exact runInstr_refuse (fitsSlot_iff.1 hf) (ifCond_none (by simpa using hc))

theorem executes_of_condition (hi : i.condition? = some (cc, k)) (hf : fitsSlot i s = true)
    (hc : condHolds cc (s.creg k) = some true) : Executes i s = true := by
  refine executes_iff.2 ⟨fitsSlot_iff.1 hf, fun cc' k' hi' => ?_⟩
  obtain ⟨rfl, rfl⟩ : cc = cc' ∧ k = k' := by simpa [hi] using hi'
  exact hc

end Conditional

/-- An unconditional form gets to its rule wherever it stands outside a slot. -/
theorem executes_of_none {i : Instr} {s : State} (hi : i.condition? = none) (hp : s.pend = none) :
    Executes i s = true :=
  executes_iff.2 ⟨by rw [hp]; rfl, by simp [hi]⟩

end Sys2Proof.Machine
end

section
/-! PROOFS. What the rule of an instruction leaves alone, field by field, read off `Did`; the invariant of the machine
(`State.Inv`), kept by every step; and how user mode is left. -/

namespace Sys2Proof.Machine

/-! ### What a rule leaves alone -/

section Rule
variable {i : Instr} {s u : State}

/-- No rule touches EPC, the pending sources, instruction memory, the platform or the environment's script. -/
theorem did_frame (h : Did i s u) : u.epc = s.epc ∧ u.intpend = s.intpend ∧ u.imem = s.imem ∧
    u.platform = s.platform ∧ u.env = s.env := by
  cases h <;> simp

/-- Only a slot-bearing instruction leaves a transfer pending. -/
theorem did_pend (h : Did i s u) (hr : i.slotRole ≠ .bearing) : u.pend = s.pend := by
  cases h
  case skipTransfer | jump | call | systemCall | toUser | fromInterrupt | mode =>
    exact absurd ‹i.slotRole = .bearing› hr
  all_goals simp

/-- A rule changes PSR only from super user mode to super user mode. -/
theorem did_psr (h : Did i s u) : u.psr = s.psr ∨ (s.psr.um = .super ∧ u.psr.um = .super) := by
  cases h
  case status hs hp => exact .inr ⟨hs, hp⟩
  all_goals exact .inl (by simp)

/-- PSR_2 changes only by `scall`, to the PSR. -/
theorem did_psr2 (h : Did i s u) : u.psr2 = s.psr2 ∨ (u.psr2 = s.psr ∧ isSystemCall i = true) := by
  cases h
  case systemCall hi => exact .inr ⟨rfl, hi⟩
  all_goals exact .inl (by simp)

/-- The hardware stack changes only by `reti`, which pops. -/
theorem did_hwstack (h : Did i s u) :
    u.hwstack = s.hwstack ∨ (u.hwstack = s.hwstack.tail ∧ isInterruptReturn i = true) := by
  cases h
  case fromInterrupt hi _ hh => exact .inr ⟨by simp [hh], hi⟩
  all_goals exact .inl (by simp)

/-- The latch is set only by one of the four multiplications whose condition, if it has one, holds. -/
theorem did_latch (h : Did i s u) : u.mulhi = s.mulhi ∨
    (isMultiply32 i = true ∧ ∀ cc k, i.condition? = some (cc, k) → condHolds cc (s.creg k) = some true) := by
  cases h
  case product hm hc => exact .inr ⟨hm, hc⟩
  all_goals exact .inl (by simp)

/-- The flags change only by the instructions that write them. -/
theorem did_cregs (h : Did i s u) : u.cregs = s.cregs ∨ writesFlags i = true := by
  cases h
  case regFlags hf | flags hf | allFlags hf => exact .inr hf
  all_goals exact .inl (by simp)

/-- Data memory changes only by a store, at the address of the store. -/
theorem did_dmem (h : Did i s u) : u.dmem = s.dmem ∨
    ∃ base off v, storeAddress s i = some (effAddr base off).toNat ∧ u.dmem = memWrite s.dmem (effAddr base off) v := by
  cases h
  case store ha => exact .inr ⟨_, _, _, ha, rfl⟩
  all_goals exact .inl (by simp)

/-- Where set 1 is selected for writing, a register of set 2 changes only by `scall`, which puts the link in SR31. -/
theorem did_set2 (h : Did i s u) (hw : s.psr.rswr = .set1) (r : Reg) : regOf u.set2 r = regOf s.set2 r ∨
    (r = linkReg ∧ regOf u.set2 r = s.link ∧ isSystemCall i = true) := by
  cases h
  case systemCall hi =>
    by_cases hr : r = linkReg
    · exact .inr ⟨hr, by simp [hr, linkReg], hi⟩
    · exact .inl (by simp [hr])
  all_goals exact .inl (by simp [hw])

/-- What a rule leaves pending outside a slot: nothing, or a legal transfer. -/
theorem did_transfer_legal (h : Did i s u) (hn : s.pend = none) (hp : s.psr.Legal)
    (hs : ∀ e ∈ s.hwstack, e.psr.Legal) {t : Transfer} (ht : u.pend = some t) : Transfer.Legal u.psr t := by
  cases h
  case skipTransfer | jump | call =>
    simp only [State.transfer_pend, Option.some.injEq] at ht
    subst ht
    exact ⟨by simp, by simp, by simp⟩
  case systemCall =>
    simp only [State.transfer_pend, Option.some.injEq] at ht
    subst ht
    exact ⟨fun _ => rfl, by rintro p ⟨⟩ ⟨⟩, by rintro _ p ⟨⟩; exact .inl rfl⟩
  case toUser hu =>
    simp only [State.transfer_pend, Option.some.injEq] at ht
    subst ht
    exact ⟨fun _ => rfl, by rintro p ⟨⟩ _; exact ⟨rfl, rfl⟩, fun hc => by simp [hu] at hc⟩
  case fromInterrupt e rest _ _ hu hh =>
    simp only [State.transfer_pend, Option.some.injEq] at ht
    subst ht
    exact ⟨fun _ => rfl, by rintro p ⟨⟩; exact hs e (by simp [hh]), fun hc => by simp [hu] at hc⟩
  case mode =>
    simp only [State.transfer_pend, Option.some.injEq] at ht
    subst ht
    exact ⟨fun _ => rfl, by rintro p ⟨⟩; exact hp, by rintro hc p ⟨⟩; exact .inr hc⟩
  all_goals simp [hn] at ht

end Rule

/-! ### The invariant -/

theorem inv_absorb {s : State} (h : s.Inv) : s.absorb.Inv where
  dmem := h.dmem
  imem := h.imem
  intpend := absorb_intpend_pairwise h.intpend
  depth := h.depth
  psr := h.psr
  stacked := h.stacked
  pend := h.pend

/-- The super user default is legal: the selectors are bound in user mode only. -/
theorem superEntry_legal : PSR.superEntry.Legal := nofun

theorem inv_enterException {s : State} (e : Exc) (h : s.Inv) : (enterException e s).Inv where
  dmem := h.dmem
  imem := h.imem
  intpend := h.intpend
  depth := h.depth
  psr := superEntry_legal
  stacked := h.stacked
  pend := nofun

theorem inv_enterInterrupt {src : Nat} {s t : State} (h : s.Inv) (ht : enterInterrupt src s = .next t) : t.Inv := by
  obtain ⟨hroom, rfl⟩ := enterInterrupt_next ht
  exact {
    dmem := h.dmem
    imem := h.imem
    intpend := h.intpend.filter _
    depth := hroom
    psr := superEntry_legal
    stacked := by
      intro e he
      rcases List.mem_cons.1 he with rfl | he
      · exact h.psr
      · exact h.stacked e he
    pend := fun tr htr => ⟨(h.pend tr htr).waits, (h.pend tr htr).legal, nofun⟩ }

/-- In a slot, an instruction that may stand there leaves nothing pending. -/
theorem did_pend_none {i : Instr} {s u : State} (hc : slotCheck i.slotRole s.pend = none) (hd : Did i s.opened u)
    {tr : Transfer} (hp : s.pend = some tr) : u.pend = none := by
  refine did_pend hd fun hr => ?_
  rw [hr, hp] at hc
  cases hc

/-- PSR after a rule in a slot is the new one of the pending transfer or the one the rule leaves. -/
theorem close_psr_cases (s u : State) :
    (s.close u).psr = u.psr ∨ ∃ tr, s.pend = some tr ∧ tr.newPSR = some (s.close u).psr := by
  rw [close_psr]
  rcases hp : s.pend with _ | ⟨_, _ | q, _⟩
  · exact .inl (by simp [nextPsr, hp])
  · exact .inl (by simp [nextPsr, hp])
  · exact .inr ⟨_, rfl, by simp [nextPsr, hp]⟩

theorem inv_close {i : Instr} {s u : State} (h : s.Inv) (hc : slotCheck i.slotRole s.pend = none)
    (hd : Did i s.opened u) : (s.close u).Inv := by
  obtain ⟨-, hint, himem, -, -⟩ := did_frame hd
  have hpsr : u.psr.Legal := by
    rcases did_psr hd with hp | ⟨-, hp⟩
    · exact hp ▸ h.psr
    · exact fun hu => by simp [hp] at hu
  refine ⟨?dmem, ?imem, ?intpend, ?depth, ?psr, ?stacked, ?pend⟩
  case dmem =>
    rw [State.close_dmem]
    rcases did_dmem hd with hm | ⟨_, _, _, -, hm⟩
    · exact hm ▸ h.dmem
    · exact hm ▸ memWrite_wf h.dmem
  case imem =>
    rw [State.close_imem, himem]
    exact h.imem
  case intpend =>
    rw [State.close_intpend, hint]
    exact h.intpend
  case depth =>
    rw [State.close_hwstack]
    rcases did_hwstack hd with hk | ⟨hk, -⟩ <;> rw [hk]
    · exact h.depth
    · exact (by simp : s.hwstack.tail.length ≤ s.hwstack.length).trans h.depth
  case psr =>
    rcases close_psr_cases s u with hp | ⟨tr, htr, hp⟩
    · exact hp ▸ hpsr
    · exact (h.pend tr htr).legal _ hp
  case stacked =>
    rw [State.close_hwstack]
    rcases did_hwstack hd with hk | ⟨hk, -⟩ <;> rw [hk]
    · exact h.stacked
    · exact fun e he => h.stacked e (List.mem_of_mem_tail he)
  case pend =>
    intro tr htr
    rw [State.close_pend] at htr
    cases hp : s.pend with
    | none =>
      rw [close_psr_of_none hp]
      exact did_transfer_legal hd rfl h.psr h.stacked htr
    | some t0 => rw [did_pend_none hc hd hp] at htr; cases htr

theorem inv_exec {i : Instr} {s t : State} (h : s.Inv) (ht : exec i s = .next t) : t.Inv := by
  obtain ⟨hc, ⟨u, hd, rfl⟩ | ⟨e, -, rfl⟩⟩ := exec_next ht
  · exact inv_close h hc hd
  · exact inv_enterException e h

/-- Settles O10: the boundary, the entry of an interrupt and every instruction keep the invariant. -/
theorem stepKeepsInv : Obligations.StepKeepsInv := by
  unfold Obligations.StepKeepsInv
  intro s t h ht
  rcases step_next ht with ⟨src, -, ht⟩ | ⟨i, -, -, ht⟩
  · exact inv_enterInterrupt (inv_absorb h) ht
  · exact inv_exec (inv_absorb h) ht

/-! ### Leaving user mode -/

/-- An interrupt is taken only with interrupts enabled and outside a slot (R331). -/
theorem takenInterrupt_some {s : State} {src : Nat} (h : s.takenInterrupt = some src) :
    s.boundary.take = true ∧ s.psr.ie = true ∧ s.pend = none := by
  unfold State.takenInterrupt State.dueInterrupt at h
  split at h
  · rename_i htake
    split at h
    · rename_i hdue
      simp only [State.absorb_psr, State.absorb_pend, Bool.and_eq_true, Option.isNone_iff_eq_none] at hdue
      exact ⟨htake, hdue⟩
    · cases h
  · cases h

/-- What a rule in user mode leaves pending in super user mode is left by `scall`. -/
theorem did_transfer_super {i : Instr} {s u : State} (hd : Did i s u) (hn : s.pend = none) (hu : s.psr.um = .user)
    {tr : Transfer} {p : PSR} (ht : u.pend = some tr) (hp : tr.newPSR = some p) (hsup : p.um = .super) :
    isSystemCall i = true := by
  cases hd
  case systemCall hi => exact hi
  case skipTransfer | jump | call =>
    simp only [State.transfer_pend, Option.some.injEq] at ht
    simp [← ht] at hp
  case toUser hs | fromInterrupt hs _ => simp [hu] at hs
  case mode =>
    simp only [State.transfer_pend, Option.some.injEq] at ht
    simp only [← ht, Option.some.injEq] at hp
    simp [← hp, hu] at hsup
  all_goals simp [hn] at ht

/-- Settles O15. In user mode a rule leaves PSR alone, so super user mode comes from an exception, an interrupt or the
pending transfer, whose new PSR the invariant bounds. -/
theorem leavingUserMode : Obligations.LeavingUserMode := by
  unfold Obligations.LeavingUserMode
  intro s t hs hu ht
  rcases step_next ht with ⟨src, hsrc, ht⟩ | ⟨i, -, hi, ht⟩
  · obtain ⟨-, rfl⟩ := enterInterrupt_next ht
    obtain ⟨-, -, hp⟩ := takenInterrupt_some hsrc
    refine ⟨fun _ => ⟨rfl, .inr (.inl ⟨src, rfl, rfl⟩)⟩, fun tr p htr => ?_⟩
    simp [hp] at htr
  · obtain ⟨hc, ⟨u, hd, rfl⟩ | ⟨e, -, rfl⟩⟩ := exec_next ht
    · refine ⟨fun hsup => ?_, fun tr p htr hp hsup => ⟨i, hi, ?_⟩⟩
      · have hupsr : u.psr = s.psr := by
          rcases did_psr hd with hp | ⟨hp, -⟩
          · exact hp
          · simp [hu] at hp
        rcases close_psr_cases s.absorb u with hp | ⟨tr, htr, hp⟩
        · simp [hp, hupsr, hu] at hsup
        · rcases (hs.pend tr htr).entry hu _ hp with he | he
          · exact ⟨he, .inr (.inr ⟨tr, htr, hp⟩)⟩
          · simp [he] at hsup
      · exact did_transfer_super hd rfl hu (by simpa using htr) hp hsup
    · exact ⟨fun _ => ⟨rfl, .inl ⟨rfl, rfl⟩⟩, fun tr p htr => by simp at htr⟩

end Sys2Proof.Machine
end

section
/-! PROOFS. User mode cannot see register set 2 (spec/46_system.md R271, R345): each rule, run on two states of user mode that
differ in set 2 alone, stops for the same reason or leaves two such states again. `scall` is the one rule that writes set 2
there, so the two sets that are left need not be the two at the start. -/

namespace Sys2Proof.Machine

/-- The state with other contents of register set 2. -/
def State.withSet2 (s : State) (o : Vector Word 32) : State := { s with set2 := o }

/-- The same effect with other contents of register set 2 where there is a state. -/
def Effect.withSet2 (o : Vector Word 32) : Effect → Effect
  | .done t => .done (t.withSet2 o)
  | .raise e => .raise e
  | .fault f => .fault f
  | .refuse r => .refuse r

/-- A PSR of user mode, with the selectors of user mode. -/
structure PSR.UserOnly (p : PSR) : Prop where
  um : p.um = .user
  rsrd : p.rsrd = .set1
  rswr : p.rswr = .set1

/-- A rule that cannot see set 2 in user mode: from a state that differs in set 2 alone it has the effect that differs in set
2 alone. -/
def Blind (body : State → Effect) : Prop :=
  ∀ s o, s.psr.UserOnly → ∃ o', body (s.withSet2 o) = (body s).withSet2 o'

/-! ### State operations on two such states -/

section Operations
variable {s : State} (o : Vector Word 32)

theorem State.withSet2_reg (h : s.psr.UserOnly) (r : Reg) : (s.withSet2 o).reg r = s.reg r := by
  simp only [State.reg, State.withSet2, h.rsrd]

theorem State.withSet2_setReg (h : s.psr.UserOnly) (d : Reg) (v : Word) :
    (s.withSet2 o).setReg d v = (s.setReg d v).withSet2 o := by
  simp only [State.setReg, State.withSet2, h.rswr]

end Operations

/-! ### The shapes of rules -/

section Shapes
variable {d a b : Reg}

/-- A rule that always completes. -/
theorem blind_done {f : State → State} (hf : ∀ s o, s.psr.UserOnly → f (s.withSet2 o) = (f s).withSet2 o) :
    Blind fun s => .done (f s) :=
  fun s o h => ⟨o, congrArg Effect.done (hf s o h)⟩

/-- A rule that always stops in the same way. -/
theorem blind_const {e : Effect} (he : ∀ o, e.withSet2 o = e) : Blind fun _ => e :=
  fun _ o _ => ⟨o, (he o).symm⟩

theorem blind_setReg {v : State → Word} (hv : ∀ s o, s.psr.UserOnly → v (s.withSet2 o) = v s) :
    Blind fun s => .done (s.setReg d (v s)) :=
  blind_done fun s o h => by rw [hv s o h, State.withSet2_setReg o h]

theorem blind_compute1 {f : Word → Word} : Blind (compute1 f d a) :=
  blind_setReg fun s o h => by rw [State.withSet2_reg o h]

theorem blind_compute2 {f : Word → Word → Word} : Blind (compute2 f d a b) :=
  blind_setReg fun s o h => by rw [State.withSet2_reg o h, State.withSet2_reg o h]

/-- A value that does not depend on the state. -/
theorem blind_setReg_const {v : Word} : Blind fun s => .done (s.setReg d v) :=
  blind_setReg fun _ _ _ => rfl

theorem blind_writeSigned {e : State → Int} (he : ∀ s o, s.psr.UserOnly → e (s.withSet2 o) = e s) :
    Blind fun s => writeSigned d (e s) s := by
  intro s o h
  refine ⟨o, ?_⟩
  simp only [writeSigned, he s o h, State.withSet2_setReg o h]
  split <;> rfl

theorem blind_writeProduct {p : State → Int} (hp : ∀ s o, s.psr.UserOnly → p (s.withSet2 o) = p s) :
    Blind fun s => writeProduct d (p s) s :=
  blind_done fun s o h => by rw [hp s o h, State.withSet2_setReg o h]; rfl

/-- A conditional form: the flags it tests are no part of set 2. -/
theorem blind_ifCond {cc : Cond} {k : CReg} {skip : State → State} {body : State → Effect}
    (hs : ∀ s o, skip (s.withSet2 o) = (skip s).withSet2 o) (hb : Blind body) : Blind (ifCond cc k skip body) := by
  intro s o h
  have hk : (s.withSet2 o).creg k = s.creg k := rfl
  rcases hc : condHolds cc (s.creg k) with _ | _ | _
  · exact ⟨o, by rw [ifCond_none hc, ifCond_none (hk ▸ hc)]; rfl⟩
  · exact ⟨o, by rw [ifCond_false hc, ifCond_false (hk ▸ hc), hs]; rfl⟩
  · obtain ⟨o', ho⟩ := hb s o h
    exact ⟨o', by rw [ifCond_true hc, ifCond_true (hk ▸ hc), ho]⟩

end Shapes

/-! ### The rules -/

section Rules
variable {d a b : Reg}

theorem blind_addRule : Blind (addRule d a b) :=
  blind_writeSigned fun s o h => by rw [State.withSet2_reg o h, State.withSet2_reg o h]

theorem blind_addiRule {imm : Word} : Blind (addiRule d a imm) :=
  blind_writeSigned fun s o h => by rw [State.withSet2_reg o h]

theorem blind_subRule : Blind (subRule d a b) :=
  blind_writeSigned fun s o h => by rw [State.withSet2_reg o h, State.withSet2_reg o h]

theorem blind_adduRule : Blind (adduRule d a b) :=
  blind_done fun s o h => by rw [State.withSet2_reg o h, State.withSet2_reg o h, State.withSet2_setReg o h]; rfl

theorem blind_addiuRule {imm : Word} : Blind (addiuRule d a imm) :=
  blind_done fun s o h => by rw [State.withSet2_reg o h, State.withSet2_setReg o h]; rfl

theorem blind_subuRule : Blind (subuRule d a b) :=
  blind_done fun s o h => by rw [State.withSet2_reg o h, State.withSet2_reg o h, State.withSet2_setReg o h]; rfl

theorem blind_cmpRule {k : CReg} : Blind (cmpRule k a b) :=
  blind_done fun s o h => by rw [State.withSet2_reg o h, State.withSet2_reg o h]; rfl

theorem blind_cmpiRule {k : CReg} {imm : Word} : Blind (cmpiRule k a imm) :=
  blind_done fun s o h => by rw [State.withSet2_reg o h]; rfl

theorem blind_andiRule {imm : Word} : Blind (andiRule d a imm) := blind_compute1
theorem blind_oriRule {imm : Word} : Blind (oriRule d a imm) := blind_compute1
theorem blind_notRule : Blind (notRule d a) := blind_compute1
theorem blind_movRule : Blind (movRule d a) := blind_compute1
theorem blind_exbRule {imm : BitVec 2} : Blind (exbRule d a imm) := blind_compute1
theorem blind_exhRule {imm : BitVec 1} : Blind (exhRule d a imm) := blind_compute1
theorem blind_exbfiRule {imm : BitVec 11} : Blind (exbfiRule d a imm) := blind_compute1
theorem blind_sextiRule {imm : BitVec 5} : Blind (sextiRule d a imm) := blind_compute1
theorem blind_andRule : Blind (andRule d a b) := blind_compute2
theorem blind_orRule : Blind (orRule d a b) := blind_compute2
theorem blind_xorRule : Blind (xorRule d a b) := blind_compute2
theorem blind_conbRule : Blind (conbRule d a b) := blind_compute2
theorem blind_conhRule : Blind (conhRule d a b) := blind_compute2
theorem blind_exbfRule : Blind (exbfRule d a b) := blind_compute2
theorem blind_sextRule : Blind (sextRule d a b) := blind_compute2
theorem blind_sllRule : Blind (sllRule d a b) := blind_compute2
theorem blind_srlRule : Blind (srlRule d a b) := blind_compute2
theorem blind_sraRule : Blind (sraRule d a b) := blind_compute2

theorem blind_shiftByImm {f : Word → Nat → Word} {imm : BitVec 6} : Blind (shiftByImm f d a imm) := by
  intro s o h
  simp only [shiftByImm]
  split
  · exact blind_compute1 s o h
  · exact ⟨o, rfl⟩

theorem blind_muliRule {imm : Word} : Blind (muliRule d a imm) :=
  blind_writeProduct fun s o h => by rw [State.withSet2_reg o h]

theorem blind_mulsRule : Blind (mulsRule d a b) :=
  blind_writeProduct fun s o h => by rw [State.withSet2_reg o h, State.withSet2_reg o h]

theorem blind_muluRule : Blind (muluRule d a b) :=
  blind_writeProduct fun s o h => by rw [State.withSet2_reg o h, State.withSet2_reg o h]

theorem blind_mulusRule : Blind (mulusRule d a b) :=
  blind_writeProduct fun s o h => by rw [State.withSet2_reg o h, State.withSet2_reg o h]

theorem blind_muls16Rule : Blind (muls16Rule d a b) :=
  blind_setReg fun s o h => by rw [State.withSet2_reg o h, State.withSet2_reg o h]

theorem blind_mulu16Rule : Blind (mulu16Rule d a b) :=
  blind_setReg fun s o h => by rw [State.withSet2_reg o h, State.withSet2_reg o h]

theorem blind_mulus16Rule : Blind (mulus16Rule d a b) :=
  blind_setReg fun s o h => by rw [State.withSet2_reg o h, State.withSet2_reg o h]

theorem blind_mulhiRule {latch : Option Word} : Blind (mulhiRule d latch) := by
  cases latch with
  | none => exact blind_const fun _ => rfl
  | some v => exact blind_setReg_const

theorem blind_branchOn {n : Nat} {cc : Cond} {k : CReg} {imm : BitVec n} : Blind (branchOn cc k imm) := by
  intro s o _
  refine ⟨o, ?_⟩
  simp only [branchOn, show (s.withSet2 o).creg k = s.creg k from rfl]
  split <;> rfl

theorem blind_bcRule {n : Nat} {k : CReg} {imm : BitVec n} : Blind (bcRule k imm) := blind_branchOn
theorem blind_begtRule {n : Nat} {k : CReg} {imm : BitVec n} : Blind (begtRule k imm) := blind_branchOn
theorem blind_beltRule {n : Nat} {k : CReg} {imm : BitVec n} : Blind (beltRule k imm) := blind_branchOn
theorem blind_beqRule {n : Nat} {k : CReg} {imm : BitVec n} : Blind (beqRule k imm) := blind_branchOn
theorem blind_bgtRule {n : Nat} {k : CReg} {imm : BitVec n} : Blind (bgtRule k imm) := blind_branchOn
theorem blind_bltRule {n : Nat} {k : CReg} {imm : BitVec n} : Blind (bltRule k imm) := blind_branchOn
theorem blind_bneRule {n : Nat} {k : CReg} {imm : BitVec n} : Blind (bneRule k imm) := blind_branchOn

theorem blind_jalRule {n : Nat} {imm : BitVec n} : Blind (jalRule imm) :=
  blind_done fun s o h => by rw [State.withSet2_setReg o h]; rfl

theorem blind_jalrRule : Blind (jalrRule a) :=
  blind_done fun s o h => by rw [State.withSet2_reg o h, State.withSet2_setReg o h]; rfl

theorem blind_jmpRule {n : Nat} {imm : BitVec n} : Blind (jmpRule imm) :=
  blind_done fun _ _ _ => rfl

theorem blind_jmprRule : Blind (jmprRule a) :=
  blind_done fun s o h => by rw [State.withSet2_reg o h]; rfl

theorem blind_nopRule : Blind nopRule :=
  blind_done fun _ _ _ => rfl

theorem blind_ldRule {off : Word} : Blind (ldRule d a off) := by
  intro s o h
  refine ⟨o, ?_⟩
  simp only [ldRule, State.withSet2_reg o h, State.withSet2_setReg o h,
    show (s.withSet2 o).dmem = s.dmem from rfl, show ∀ a, (s.withSet2 o).dValid a = s.dValid a from fun _ => rfl]
  split
  · split <;> rfl
  · rfl

theorem blind_stRule {off : Word} : Blind (stRule b a off) := by
  intro s o h
  refine ⟨o, ?_⟩
  simp only [stRule, State.withSet2_reg o h, show (s.withSet2 o).platform = s.platform from rfl,
    show ∀ a, (s.withSet2 o).dValid a = s.dValid a from fun _ => rfl,
    show ∀ a, (s.withSet2 o).inProgramText a = s.inProgramText a from fun _ => rfl]
  split
  · split <;> rfl
  · rfl

/-- A rule that user mode may not run stops for that reason, set 2 unseen. -/
theorem blind_of_user {body : State → Effect} {e : Effect} (he : ∀ o, e.withSet2 o = e)
    (h : ∀ s : State, s.psr.um = .user → body s = e) : Blind body :=
  fun s o hu => ⟨o, by rw [h s hu.um, h (s.withSet2 o) hu.um, he]⟩

theorem blind_chrsRule {imm : BitVec 2} : Blind (chrsRule imm) :=
  blind_of_user (fun _ => rfl) fun _ => chrsRule_user

theorem blind_setInterrupts {ie : Bool} : Blind (setInterrupts ie) :=
  blind_of_user (fun _ => rfl) fun _ => setInterrupts_user

theorem blind_returnToUser : Blind returnToUser :=
  blind_of_user (fun _ => rfl) fun _ => returnToUser_user

theorem blind_returnFromInterrupt : Blind returnFromInterrupt :=
  blind_of_user (fun _ => rfl) fun _ => returnFromInterrupt_user

theorem blind_sconRule : Blind (sconRule d) :=
  blind_setReg fun _ _ _ => rfl

theorem blind_rconRule : Blind (rconRule a) :=
  blind_done fun s o h => by rw [State.withSet2_reg o h]; rfl

/-- `scall` puts its link address in SR31 of either set 2. -/
theorem blind_systemCall : Blind systemCall :=
  fun s o _ => ⟨withReg o linkReg s.link, rfl⟩

theorem blind_swmRule {imm : BitVec 6} : Blind (swmRule imm) :=
  blind_done fun _ _ _ => rfl

theorem blind_trapRule : Blind trapRule :=
  blind_const fun _ => rfl

theorem blind_copSend {n : CopNum} {op : State → CopOp} (hop : ∀ s o, s.psr.UserOnly → op (s.withSet2 o) = op s) :
    Blind fun s => copSend n (op s) s := by
  intro s o h
  refine ⟨o, ?_⟩
  simp only [copSend, hop s o h, show (s.withSet2 o).attached n = s.attached n from rfl]
  split <;> rfl

theorem blind_movdtcRule {n : CopNum} {r : Reg} : Blind (movdtcRule n r a) :=
  blind_copSend fun s o h => by rw [State.withSet2_reg o h]

theorem blind_copReceive {n : CopNum} {r : Reg} : Blind (copReceive n r d) := by
  intro s o h
  refine ⟨o, ?_⟩
  simp only [copReceive, State.withSet2_setReg o h, show (s.withSet2 o).attached n = s.attached n from rfl,
    show (s.withSet2 o).copLog = s.copLog from rfl]
  split <;> rfl

end Rules

/-! ### Instructions and steps -/

theorem sameUpToSet2_next {t : State} (o : Vector Word 32) : SameUpToSet2 (.next t) (.next (t.withSet2 o)) := rfl

theorem State.withSet2_close (s u : State) (o o' : Vector Word 32) :
    (s.withSet2 o).close (u.withSet2 o') = (s.close u).withSet2 o' := by
  show commit s.pend (s.pc + s.len) (u.withSet2 o') = (commit s.pend (s.pc + s.len) u).withSet2 o'
  cases s.pend <;> rfl

/-- The slot discipline, exceptions and `pc` look at nothing of set 2. -/
theorem sameUpToSet2_runInstr {role : SlotRole} {body : State → Effect} (hb : Blind body) {s : State}
    (o : Vector Word 32) (h : s.psr.UserOnly) :
    SameUpToSet2 (runInstr role body s) (runInstr role body (s.withSet2 o)) := by
  obtain ⟨o', ho⟩ := hb s.opened o h
  replace ho : body (s.withSet2 o).opened = (body s.opened).withSet2 o' := ho
  cases hc : slotCheck role s.pend with
  | some r =>
    rw [runInstr_slot hc, runInstr_slot (s := s.withSet2 o) hc]
    rfl
  | none =>
    cases he : body s.opened with
    | done u =>
      rw [he] at ho
      rw [runInstr_done hc he, runInstr_done (s := s.withSet2 o) hc ho, State.withSet2_close]
      exact sameUpToSet2_next o'
    | raise e =>
      rw [he] at ho
      cases hp : s.pend with
      | none =>
        rw [runInstr_raise hp he, runInstr_raise (s := s.withSet2 o) hp ho]
        exact sameUpToSet2_next o
      | some tr =>
        have hs : s.pend.isSome = true := by simp [hp]
        rw [runInstr_raise_slot hc hs he, runInstr_raise_slot (s := s.withSet2 o) hc hs ho]
        rfl
    | fault f =>
      rw [he] at ho
      rw [runInstr_fault hc he, runInstr_fault (s := s.withSet2 o) hc ho]
      rfl
    | refuse r =>
      rw [he] at ho
      rw [runInstr_refuse hc he, runInstr_refuse (s := s.withSet2 o) hc ho]
      rfl

/-- The condition of a conditional form, and what it does where it is skipped, look at nothing of set 2. -/
theorem blind_guarded {i : Instr} {body : State → Effect} (hb : Blind body) : Blind (guarded i body) := by
  have hskip : ∀ s o, skipOf i (s.withSet2 o) = (skipOf i s).withSet2 o := by
    intro s o
    simp only [skipOf]
    cases i.slotRole <;> rfl
  cases hi : i.condition? with
  | none =>
    rw [guarded_none hi]
    exact hb
  | some p =>
    rw [guarded_some hi]
    exact blind_ifCond hskip hb

/-- Every rule, mnemonic by mnemonic. -/
theorem blind_ruleOf (latch : Option Word) (i : Instr) : Blind (ruleOf latch i) := by
  cases i
  case add | addCond | addShort => exact blind_addRule
  case addi | addiCond | addiShort => exact blind_addiRule
  case sub | subCond | subShort => exact blind_subRule
  case addu | adduCond | adduShort => exact blind_adduRule
  case addiu | addiuCond | addiuShort => exact blind_addiuRule
  case subu | subuCond | subuShort => exact blind_subuRule
  case cmp | cmpShort => exact blind_cmpRule
  case cmpi | cmpiShort => exact blind_cmpiRule
  case andi | andiCond | andiShort => exact blind_andiRule
  case ori | oriCond | oriShort => exact blind_oriRule
  case not | notCond | notShort => exact blind_notRule
  case mov | movCond | movShort => exact blind_movRule
  case exb | exbCond | exbShort => exact blind_exbRule
  case exh | exhCond | exhShort => exact blind_exhRule
  case exbfi => exact blind_exbfiRule
  case sexti | sextiCond | sextiShort => exact blind_sextiRule
  case and | andCond | andShort => exact blind_andRule
  case or | orCond | orShort => exact blind_orRule
  case xor | xorCond | xorShort => exact blind_xorRule
  case conb | conbCond | conbShort => exact blind_conbRule
  case conh | conhCond | conhShort => exact blind_conhRule
  case exbf | exbfCond | exbfShort => exact blind_exbfRule
  case sext | sextCond | sextShort => exact blind_sextRule
  case sll | sllCond | sllShort => exact blind_sllRule
  case srl | srlCond | srlShort => exact blind_srlRule
  case sra | sraCond | sraShort => exact blind_sraRule
  case lli | lui => exact blind_setReg_const
  case slli | slliCond | slliShort | srli | srliCond | srliShort | srai | sraiCond | sraiShort => exact blind_shiftByImm
  case muli | muliCond | muliShort => exact blind_muliRule
  case muls | mulsCond | mulsShort => exact blind_mulsRule
  case mulu | muluCond | muluShort => exact blind_muluRule
  case mulus | mulusCond | mulusShort => exact blind_mulusRule
  case muls16 | muls16Cond | muls16Short => exact blind_muls16Rule
  case mulu16 | mulu16Cond | mulu16Short => exact blind_mulu16Rule
  case mulus16 | mulus16Cond | mulus16Short => exact blind_mulus16Rule
  case mulhi | mulhiCond | mulhiShort => exact blind_mulhiRule
  case bc | bcShort => exact blind_bcRule
  case begt | begtShort => exact blind_begtRule
  case belt | beltShort => exact blind_beltRule
  case beq | beqShort => exact blind_beqRule
  case bgt | bgtShort => exact blind_bgtRule
  case blt | bltShort => exact blind_bltRule
  case bne | bneShort => exact blind_bneRule
  case jal | jalShort => exact blind_jalRule
  case jalr | jalrCond | jalrShort => exact blind_jalrRule
  case jmp | jmpShort => exact blind_jmpRule
  case jmpr | jmprCond | jmprShort => exact blind_jmprRule
  case nop | nopShort => exact blind_nopRule
  case ld | ldCond | ldShort => exact blind_ldRule
  case st | stCond | stShort => exact blind_stRule
  case chrs | chrsShort => exact blind_chrsRule
  case di | diShort | ei | eiShort => exact blind_setInterrupts
  case scon | sconShort => exact blind_sconRule
  case rcon | rconShort => exact blind_rconRule
  case scall | scallCond | scallShort => exact blind_systemCall
  case retu | retuShort => exact blind_returnToUser
  case reti | retiShort => exact blind_returnFromInterrupt
  case swm | swmShort => exact blind_swmRule
  case trap | trapShort => exact blind_trapRule
  case cop => exact blind_copSend fun _ _ _ => rfl
  case movdtc | movdtcCond | movdtcShort | movctc | movctcCond | movctcShort => exact blind_movdtcRule
  case movdfc | movdfcCond | movdfcShort | movcfc | movcfcCond | movcfcShort => exact blind_copReceive

theorem sameUpToSet2_exec (i : Instr) {s : State} (o : Vector Word 32) (h : s.psr.UserOnly) :
    SameUpToSet2 (exec i s) (exec i (s.withSet2 o)) := by
  rw [exec_eq, exec_eq i (s.withSet2 o)]
  exact sameUpToSet2_runInstr (blind_guarded (blind_ruleOf s.mulhi i)) o h

/-- Settles O14: the boundary, the fetch and the entry of an interrupt look at nothing of set 2, and no rule does. -/
theorem userCannotSeeSet2 : Obligations.UserCannotSeeSet2 := by
  unfold Obligations.UserCannotSeeSet2
  intro s other hu hl
  have h : s.psr.UserOnly := ⟨hu, (hl hu).1, (hl hu).2⟩
  have htaken : (s.withSet2 other).takenInterrupt = s.takenInterrupt := rfl
  have hfetch : fetch (s.withSet2 other) = fetch s := rfl
  show SameUpToSet2 (step s) (step (s.withSet2 other))
  unfold step
  rw [htaken, hfetch]
  cases s.takenInterrupt with
  | some src =>
    show SameUpToSet2 (enterInterrupt src s.absorb) (enterInterrupt src (s.absorb.withSet2 other))
    unfold enterInterrupt
    rw [show (s.absorb.withSet2 other).hwstack = s.absorb.hwstack from rfl]
    split
    · rfl
    · exact sameUpToSet2_next other
  | none =>
    cases fetch s with
    | next i => exact sameUpToSet2_exec i other h
    | fault f => rfl
    | refused r => rfl

end Sys2Proof.Machine
end

section
/-! PROOFS. What a step changes (spec/10_state.md, spec/20_memory.md, spec/46_system.md): each field by the instructions that
write it; what follows a slot; the instruction boundary and the fetch. A step that is not the entry of an interrupt is an
exception or the rule of the fetched instruction (`step_cases`), so each statement reads off what that rule can do. -/

namespace Sys2Proof.Machine

/-! ### What a step can do -/

/-- All that a step can do, an instruction's rule being one of the things of `Did`. -/
theorem step_cases {s t : State} (h : step s = .next t) :
    (∃ src, s.takenInterrupt = some src ∧ t = { s.absorb with
        hwstack := ⟨s.pc, s.psr⟩ :: s.hwstack
        intpend := s.absorb.intpend.filter (· != src)
        psr := .superEntry
        pc := Config.intAddr src
        mulhi := none }) ∨
      ∃ i, s.takenInterrupt = none ∧ fetch s = .next i ∧ slotCheck i.slotRole s.pend = none ∧
        ((∃ u, Did i s.absorb.opened u ∧ t = s.absorb.close u) ∨ ∃ e, t = enterException e s.absorb) := by
  rcases step_next h with ⟨src, hsrc, ht⟩ | ⟨i, hn, hi, ht⟩
  · obtain ⟨-, rfl⟩ := enterInterrupt_next ht
    exact .inl ⟨src, hsrc, rfl⟩
  · obtain ⟨hc, ⟨u, hd, rfl⟩ | ⟨e, -, rfl⟩⟩ := exec_next ht
    · exact .inr ⟨i, hn, hi, hc, .inl ⟨u, hd, rfl⟩⟩
    · exact .inr ⟨i, hn, hi, hc, .inr ⟨e, rfl⟩⟩

/-! ### The writers of each field -/

/-- Settles O12: no rule touches instruction memory or the platform, nor does the entry of an exception or an interrupt. -/
theorem codeIsFixed : Obligations.CodeIsFixed := by
  unfold Obligations.CodeIsFixed
  intro s t ht
  rcases step_cases ht with ⟨src, -, rfl⟩ | ⟨i, -, -, -, ⟨u, hd, rfl⟩ | ⟨e, rfl⟩⟩
  · exact ⟨rfl, rfl⟩
  · obtain ⟨-, -, himem, hplatform, -⟩ := did_frame hd
    exact ⟨by simp [himem], by simp [hplatform]⟩
  · exact ⟨rfl, rfl⟩

/-- Settles O13: with set 1 selected for writing, only `scall` reaches set 2, and of it only SR31. -/
theorem userLeavesSet2 : Obligations.UserLeavesSet2 := by
  unfold Obligations.UserLeavesSet2
  intro s t r hu hl ht hr
  rcases step_cases ht with ⟨src, -, rfl⟩ | ⟨i, -, hi, -, ⟨u, hd, rfl⟩ | ⟨e, rfl⟩⟩
  · exact absurd rfl hr
  · rw [State.close_set2] at hr ⊢
    rcases did_set2 hd (hl hu).2 r with h | ⟨rfl, hlink, hsys⟩
    · exact absurd h hr
    · exact ⟨rfl, hlink.trans (link_eq s), i, hi, hsys⟩
  · exact absurd rfl hr

/-- Settles O16: a rule that changes a flag is one of a writer of flags. -/
theorem flagWriters : Obligations.FlagWriters := by
  unfold Obligations.FlagWriters
  intro s t k ht hk
  rcases step_cases ht with ⟨src, -, rfl⟩ | ⟨i, -, hi, -, ⟨u, hd, rfl⟩ | ⟨e, rfl⟩⟩
  · exact absurd rfl hk
  · rcases did_cregs hd with h | h
    · exact absurd (by simp [State.creg, h]) hk
    · exact ⟨i, hi, h⟩
  · exact absurd rfl hk

/-- Settles O17: the latch is cleared before every rule, and only an executed multiplication sets it again. -/
theorem latchWriters : Obligations.LatchWriters := by
  unfold Obligations.LatchWriters
  intro s t ht hm
  rcases step_cases ht with ⟨src, -, rfl⟩ | ⟨i, -, hi, hc, ⟨u, hd, rfl⟩ | ⟨e, rfl⟩⟩
  · exact absurd rfl hm
  · rcases did_latch hd with h | ⟨hmul, hcond⟩
    · exact absurd (by simp [h]) hm
    · exact ⟨i, hi, hmul, executes_iff.2 ⟨hc, hcond⟩⟩
  · exact absurd rfl hm

/-- Settles O18, register by register. -/
theorem specialRegisterWriters : Obligations.SpecialRegisterWriters := by
  unfold Obligations.SpecialRegisterWriters
  intro s t ht
  rcases step_cases ht with ⟨src, hsrc, rfl⟩ | ⟨i, -, hi, -, ⟨u, hd, rfl⟩ | ⟨e, rfl⟩⟩
  · exact ⟨fun h => absurd rfl h, fun h => absurd rfl h, fun _ => .inl ⟨src, hsrc, rfl⟩⟩
  · refine ⟨fun h => ?psr2, fun h => ?epc, fun h => ?hwstack⟩
    case psr2 =>
      rw [State.close_psr2] at h ⊢
      rcases did_psr2 hd with hsame | ⟨hcopy, hsys⟩
      · exact absurd hsame h
      · exact ⟨hcopy, i, hi, hsys⟩
    case epc =>
      obtain ⟨hepc, -⟩ := did_frame hd
      exact absurd (by simp [hepc]) h
    case hwstack =>
      rw [State.close_hwstack] at h ⊢
      rcases did_hwstack hd with hsame | ⟨hpop, hret⟩
      · exact absurd hsame h
      · exact .inr ⟨hpop, i, hi, hret⟩
  · exact ⟨fun h => absurd rfl h, fun _ => ⟨rfl, rfl, rfl⟩, fun h => absurd rfl h⟩

/-- Where a store puts its word does not depend on the requests that arrive, nor on what is pending. -/
theorem storeAddress_opened (s : State) (i : Instr) : storeAddress s.absorb.opened i = storeAddress s i := by
  cases i <;> rfl

/-- Settles O19: a byte that reads differently lies in the four that the store wrote. -/
theorem memoryWriters : Obligations.MemoryWriters := by
  unfold Obligations.MemoryWriters
  intro s t a ht ha
  rcases step_cases ht with ⟨src, -, rfl⟩ | ⟨i, -, hi, -, ⟨u, hd, rfl⟩ | ⟨e, rfl⟩⟩
  · exact absurd rfl ha
  · rw [State.close_dmem] at ha
    rcases did_dmem hd with h | ⟨base, off, v, haddr, h⟩
    · exact absurd (by rw [h]; rfl) ha
    · refine ⟨i, _, hi, (storeAddress_opened s i).symm.trans haddr, ?_⟩
      by_contra hout
      refine ha ?_
      rw [h, memWrite, readByte_writeBytes, if_neg (by simpa using hout)]
      rfl
  · exact absurd rfl ha

/-! ### Slots -/

/-- Settles O20: what completes in a slot has left nothing pending, and the pending transfer decides `pc` and PSR. -/
theorem slotCompletes : Obligations.SlotCompletes := by
  unfold Obligations.SlotCompletes
  intro i s t tr hp ht
  obtain ⟨hc, ⟨u, hd, rfl⟩ | ⟨e, hn, -⟩⟩ := exec_next ht
  · refine ⟨?_, fun p hnew => ?_, ?_⟩
    · rw [State.close, hp, commit, State.len_eq]
    · rw [State.close, hp, commit, hnew]
      rfl
    · rw [State.close_pend]
      exact did_pend_none hc hd hp
  · simp [hp] at hn

/-! ### The instruction boundary and the fetch -/

/-- Where no interrupt is taken, a step is the fetched instruction. -/
theorem step_of_fetched {s : State} {i : Instr} (h : s.takenInterrupt = none) (hf : fetch s = .next i) :
    step s = exec i s.absorb := by
  simp only [step, h, hf]

/-- Where no interrupt is taken and the fetch is refused, the step is. -/
theorem step_of_fetch_refused {s : State} {r : Refusal} (h : s.takenInterrupt = none) (hf : fetch s = .refused r) :
    step s = .refused r := by
  simp only [step, h, hf]

/-- Where no interrupt is taken and the fetch faults, the step does. -/
theorem step_of_fetch_fault {s : State} {f : Fault} (h : s.takenInterrupt = none) (hf : fetch s = .fault f) :
    step s = .fault f := by
  simp only [step, h, hf]

/-- Settles O5. -/
theorem stepRunsDecoded : Obligations.StepRunsDecoded := by
  unfold Obligations.StepRunsDecoded
  intro s bytes i hn ha hb hd
  have hf : fetch s = .next i := by
    simp [fetch, ha, hb, hd]
  refine ⟨?_, rfl, fun he => ?_⟩
  · exact step_of_fetched hn hf
  · obtain ⟨set1, set2, pc, pend, cregs, psr, psr2, epc, hwstack, mulhi, intpend, dmem, imem, copLog, platform, env⟩ := s
    obtain rfl : env = [] := he
    rfl

/-- Settles O6, stop by stop in the order of the fetch. -/
theorem fetchStops : Obligations.FetchStops := by
  unfold Obligations.FetchStops
  intro s hn
  refine ⟨fun ha => ?_, fun ha hb => ?_, fun bytes why ha hb hd => ?_⟩
  · have hf : fetch s = .refused .misalignedFetch := by simp [fetch, ha]
    exact step_of_fetch_refused hn hf
  · have hf : fetch s = .fault .undefinedFetch := by simp [fetch, ha, hb]
    exact step_of_fetch_fault hn hf
  · have hf : fetch s = .refused (.illegalEncoding why) := by simp [fetch, ha, hb, hd]
    exact step_of_fetch_refused hn hf

/-- With room on the hardware stack the entry of an interrupt completes (R332). -/
theorem enterInterrupt_of_room {src : Nat} {s : State} (h : s.hwstack.length < Config.hwStackDepth) :
    enterInterrupt src s = .next { s with
      hwstack := ⟨s.pc, s.psr⟩ :: s.hwstack
      intpend := s.intpend.filter (· != src)
      psr := .superEntry
      pc := Config.intAddr src
      mulhi := none } :=
  if_neg (by omega)

/-- Settles O7: the source that is served before every other pending one is the due one, and it is entered. -/
theorem interruptEntry : Obligations.InterruptEntry := by
  unfold Obligations.InterruptEntry
  intro s requests rest src henv hie hp hsrc hfirst
  have hboundary : s.boundary = ⟨requests, true⟩ := by simp [State.boundary, henv]
  have hmem : ∀ n, n ∈ s.absorb.intpend ↔ n ∈ s.intpend ∨ n ∈ requests := by
    intro n
    rw [State.absorb_intpend, mem_foldl_addSource, hboundary]
  have htop : topSource s.absorb.intpend = some src :=
    topSource_of_first ((hmem src).2 hsrc) fun n hn => hfirst n ((hmem n).1 hn)
  have htaken : s.takenInterrupt = some src := by
    simp only [State.takenInterrupt, State.dueInterrupt, hboundary, if_true, State.absorb_psr, State.absorb_pend, hie, hp,
      htop]
    rfl
  have hstep : step s = enterInterrupt src s.absorb := by
    unfold step
    rw [htaken]
  refine ⟨fun hroom => ?_, fun hfull => ?_⟩
  · refine ⟨_, hstep.trans (enterInterrupt_of_room hroom), rfl, fun n => ?_, rfl, rfl, rfl, hp,
      fun _ => ⟨rfl, rfl⟩, fun _ => rfl, fun _ => rfl, rfl, rfl, rfl, rfl, rfl, by simp [henv]⟩
    rw [List.mem_filter, hmem]
    simp [and_comm]
  · rw [hstep, enterInterrupt, if_pos (by simpa using hfull)]

/-- Settles O8: each of the five reasons leaves no interrupt to take, and no rule serves a request. -/
theorem interruptHeldOff : Obligations.InterruptHeldOff := by
  unfold Obligations.InterruptHeldOff
  intro s hs
  have hn : s.takenInterrupt = none := by
    rcases hs with h | h | h | h | ⟨h, hr⟩
    · simp [State.takenInterrupt, State.dueInterrupt, h]
    · simp [State.takenInterrupt, State.dueInterrupt, h]
    · simp [State.takenInterrupt, State.boundary, h]
    · simp [State.takenInterrupt, h]
    · simp [State.takenInterrupt, State.dueInterrupt, h, hr, topSource]
  refine ⟨hn, fun t ht n hpending => ?_⟩
  have habsorb : n ∈ s.absorb.intpend := by
    rw [State.absorb_intpend, mem_foldl_addSource]
    exact hpending
  rcases step_cases ht with ⟨src, hsrc, -⟩ | ⟨i, -, -, -, ⟨u, hd, rfl⟩ | ⟨e, rfl⟩⟩
  · simp [hn] at hsrc
  · obtain ⟨-, hint, -⟩ := did_frame hd
    rw [State.close_intpend, hint]
    exact habsorb
  · exact habsorb

/-! ### Reset and the conditions -/

/-- Settles O9: memory holds nothing, nothing is pending, and the PSR is the super user default. -/
theorem resetIsLegal : Obligations.ResetIsLegal where
  dmem := reset_memory_wf.1
  imem := reset_memory_wf.2
  intpend := List.Pairwise.nil
  depth := Nat.zero_le _
  psr := superEntry_legal
  stacked := nofun
  pend := nofun

/-- Settles O11. -/
theorem resetValues : Obligations.ResetValues := by
  unfold Obligations.ResetValues
  exact ⟨rfl, rfl, rfl, rfl, rfl, by decide⟩

/-- Settles O24, flag by flag. -/
theorem conditionTable : Obligations.ConditionTable := by
  unfold Obligations.ConditionTable
  decide

end Sys2Proof.Machine
end

section
/-! PROOFS. Additions, subtractions and comparisons (spec/40_arithmetic.md): what a rule of each shape leaves, in the
vocabulary of the statements; then each mnemonic, whose three forms have one rule. -/

namespace Sys2Proof.Machine

/-! ### Statements about all forms of a mnemonic -/

theorem R3Forms.imp {u : Reg → Reg → Reg → Instr} {c : Cond → CReg → Reg → Reg → Reg → Instr}
    {h : RegS → RegS → Instr} {P Q : Instr → Reg → Reg → Reg → Prop} (hPQ : ∀ i d a b, P i d a b → Q i d a b)
    (hP : R3Forms u c h P) :
    R3Forms u c h Q :=
  ⟨fun _ _ _ => hPQ _ _ _ _ (hP.1 _ _ _), fun _ _ _ _ _ => hPQ _ _ _ _ (hP.2.1 _ _ _ _ _),
    fun _ _ => hPQ _ _ _ _ (hP.2.2 _ _)⟩

theorem SignedImmForms.imp {u : Reg → Reg → BitVec 15 → Instr} {c : Cond → CReg → Reg → Reg → BitVec 9 → Instr}
    {h : RegS → BitVec 7 → Instr} {P Q : Instr → Reg → Reg → Int → Prop} (hPQ : ∀ i d a e, P i d a e → Q i d a e)
    (hP : SignedImmForms u c h P) : SignedImmForms u c h Q :=
  ⟨fun _ _ _ => hPQ _ _ _ _ (hP.1 _ _ _), fun _ _ _ _ _ => hPQ _ _ _ _ (hP.2.1 _ _ _ _ _),
    fun _ _ => hPQ _ _ _ _ (hP.2.2 _ _)⟩

/-! ### Unconditional forms that completed -/

section Completed
variable {i : Instr} {s t u : State}

/-- An unconditional form that answered a next state got to its rule. -/
theorem executes_of_next (hi : i.condition? = none) (h : exec i s = .next t) : Executes i s = true :=
  executes_iff.2 ⟨(exec_next h).1, by simp [hi]⟩

/-- The state that an unconditional form answered is the one its rule completes with. -/
theorem eq_close_of_next (hi : i.condition? = none) (h : exec i s = .next t) (hb : ruleOf s.mulhi i s.opened = .done u) :
    t = s.close u := by
  have hdone := exec_done (executes_of_next hi h) hb
  rw [h] at hdone
  exact Host.Outcome.next.inj hdone

end Completed

/-! ### Signed results -/

/-- The rule of `i` writes the exact signed result `e` to register `d`, or raises Overflow (R140, R322). -/
def SignedRule (i : Instr) (d : Reg) (e : State → Int) : Prop :=
  ∀ s : State, ruleOf s.mulhi i s.opened = writeSigned d (e s) s.opened

section Signed
variable {i : Instr} {d a b : Reg} {e : State → Int}

theorem signedRule_addRule (h : ∀ latch, ruleOf latch i = addRule d a b) :
    SignedRule i d fun s => (readReg s a).toInt + (readReg s b).toInt := by
  intro s
  simp only [h, addRule, reg_eq_readReg, readReg_opened]

theorem signedRule_addiRule {n : Nat} {imm : BitVec n} (hn : n ≤ 32)
    (h : ∀ latch, ruleOf latch i = addiRule d a (sextImm imm)) :
    SignedRule i d fun s => (readReg s a).toInt + imm.toInt := by
  intro s
  simp only [h, addiRule, reg_eq_readReg, readReg_opened, sextImm_toInt imm hn]

theorem signedRule_subRule (h : ∀ latch, ruleOf latch i = subRule d a b) :
    SignedRule i d fun s => (readReg s a).toInt - (readReg s b).toInt := by
  intro s
  simp only [h, subRule, reg_eq_readReg, readReg_opened]

theorem add_signedRule : R3Forms .add .addCond .addShort fun i d a b =>
    SignedRule i d fun s => (readReg s a).toInt + (readReg s b).toInt :=
  ⟨fun _ _ _ => signedRule_addRule fun _ => rfl, fun _ _ _ _ _ => signedRule_addRule fun _ => rfl,
    fun _ _ => signedRule_addRule fun _ => rfl⟩

theorem addi_signedRule : SignedImmForms .addi .addiCond .addiShort fun i d a imm =>
    SignedRule i d fun s => (readReg s a).toInt + imm :=
  ⟨fun _ _ _ => signedRule_addiRule (by decide) fun _ => rfl, fun _ _ _ _ _ => signedRule_addiRule (by decide) fun _ => rfl,
    fun _ _ => signedRule_addiRule (by decide) fun _ => rfl⟩

theorem sub_signedRule : R3Forms .sub .subCond .subShort fun i d a b =>
    SignedRule i d fun s => (readReg s a).toInt - (readReg s b).toInt :=
  ⟨fun _ _ _ => signedRule_subRule fun _ => rfl, fun _ _ _ _ _ => signedRule_subRule fun _ => rfl,
    fun _ _ => signedRule_subRule fun _ => rfl⟩

/-- A result that fits is written. -/
theorem SignedRule.writes (h : SignedRule i d e) (s : State) (he : Executes i s = true) (hf : FitsSigned (e s)) :
    ∃ t v, exec i s = .next t ∧ v.toInt = e s ∧ WritesRegOnly s t d v :=
  ⟨_, _, exec_done he ((h s).trans (writeSigned_fits hf)), toInt_ofInt_of_fits hf, writesRegOnly_setReg s d _⟩

/-- One that does not fit raises Overflow outside a slot. -/
theorem SignedRule.raises (h : SignedRule i d e) : RaisesWhere i fun s => ¬ FitsSigned (e s) :=
  fun s he hp hf => ⟨_, exec_raise he hp ((h s).trans (writeSigned_overflow hf)), entersException_enter _ s⟩

/-- And is refused in a slot. -/
theorem SignedRule.refused (h : SignedRule i d e) : RefusedInSlotWhere i fun s => ¬ FitsSigned (e s) :=
  fun s he hp hf => exec_raise_slot he hp ((h s).trans (writeSigned_overflow hf))

end Signed

/-- Settles O26. -/
theorem signedAddSub : Obligations.SignedAddSub := by
  unfold Obligations.SignedAddSub
  exact ⟨add_signedRule.imp fun _ _ _ _ h => h.writes, addi_signedRule.imp fun _ _ _ _ h => h.writes,
    sub_signedRule.imp fun _ _ _ _ h => h.writes⟩

/-- Settles O27. -/
theorem signedOverflow : Obligations.SignedOverflow := by
  unfold Obligations.SignedOverflow
  exact ⟨add_signedRule.imp fun _ _ _ _ h => h.raises, addi_signedRule.imp fun _ _ _ _ h => h.raises,
    sub_signedRule.imp fun _ _ _ _ h => h.raises⟩

/-! ### Results with flags -/

section Flags
variable {i : Instr} {d a b : Reg}

/-- A rule that writes a register and the flags of `c[0]`. -/
theorem computesWithFlags_of {P : State → Word → Flags → Prop} {v : State → Word} {f : State → Flags}
    (h : ∀ s : State, ruleOf s.mulhi i s.opened = .done ((s.opened.setReg d (v s)).setCreg 0#3 (f s)))
    (hP : ∀ s, P s (v s) (f s)) : ComputesWithFlags i d P := by
  intro s he
  refine ⟨_, v s, f s, exec_done he (h s), hP s, fun r => ?_, fun k => ?_, retires_close (by simp) (by simp), by simp,
    fun a => by simp, by simp, ?_⟩
  · simpa using writesReg_close s d (v s) r
  · simp
  · simp [SameSpecial]

/-- A rule that writes the flags of one condition register. -/
theorem comparesInto_of {k : CReg} {P : State → Flags → Prop} {f : State → Flags}
    (h : ∀ s : State, ruleOf s.mulhi i s.opened = .done (s.opened.setCreg k (f s))) (hP : ∀ s, P s (f s)) :
    ComparesInto i k P := by
  intro s he
  refine ⟨_, f s, exec_done he (h s), hP s, fun j => by simp, fun r => by simp, retires_close (by simp) (by simp),
    by simp, fun a => by simp, by simp, ?_⟩
  simp [SameSpecial]

theorem computesWithFlags_adduRule (h : ∀ latch, ruleOf latch i = adduRule d a b) : ComputesWithFlags i d fun s v f =>
    let sum := (readReg s a).toNat + (readReg s b).toNat
    v.toNat = sum % 2 ^ 32 ∧ f = ⟨decide (v.toNat = 0), decide (2 ^ 31 ≤ v.toNat), decide (2 ^ 32 ≤ sum)⟩ :=
  computesWithFlags_of (fun s => by simp only [h, adduRule, writeSum, reg_eq_readReg, readReg_opened])
    fun _ => ⟨BitVec.toNat_add _ _, addFlags_eq _ _⟩

theorem computesWithFlags_addiuRule {n : Nat} {imm : BitVec n} (hn : n ≤ 32)
    (h : ∀ latch, ruleOf latch i = addiuRule d a (zextImm imm)) : ComputesWithFlags i d fun s v f =>
    let sum := (readReg s a).toNat + imm.toNat
    v.toNat = sum % 2 ^ 32 ∧ f = ⟨decide (v.toNat = 0), decide (2 ^ 31 ≤ v.toNat), decide (2 ^ 32 ≤ sum)⟩ := by
  refine computesWithFlags_of (v := fun s => readReg s a + zextImm imm)
    (f := fun s => addFlags (readReg s a) (zextImm imm))
    (fun s => by simp only [h, addiuRule, writeSum, reg_eq_readReg, readReg_opened]) fun s => ?_
  rw [← zextImm_toNat imm hn]
  exact ⟨BitVec.toNat_add _ _, addFlags_eq _ _⟩

theorem computesWithFlags_subuRule (h : ∀ latch, ruleOf latch i = subuRule d a b) : ComputesWithFlags i d fun s v f =>
    (v.toNat : Int) = ((readReg s a).toNat - (readReg s b).toNat : Int) % 2 ^ 32 ∧ f.z = decide (v.toNat = 0) ∧
      f.n = decide (2 ^ 31 ≤ v.toNat) ∧ BorrowFlag (readReg s a).toNat (readReg s b).toNat f.c :=
  computesWithFlags_of (fun s => by simp only [h, subuRule, reg_eq_readReg, readReg_opened])
    fun _ => ⟨sub_toNat_emod _ _, subFlags_z _ _, msb_eq_decide_le _, subCarry_borrow _ _⟩

end Flags

/-- Settles O28. -/
theorem unsignedAddSub : Obligations.UnsignedAddSub := by
  unfold Obligations.UnsignedAddSub
  refine ⟨?addu, ?addiu, ?subu⟩
  case addu => exact ⟨
    fun _ _ _ => computesWithFlags_adduRule fun _ => rfl,
    fun _ _ _ _ _ => computesWithFlags_adduRule fun _ => rfl,
    fun _ _ => computesWithFlags_adduRule fun _ => rfl⟩
  case addiu => exact ⟨
    fun _ _ _ => computesWithFlags_addiuRule (by decide) fun _ => rfl,
    fun _ _ _ _ _ => computesWithFlags_addiuRule (by decide) fun _ => rfl,
    fun _ _ => computesWithFlags_addiuRule (by decide) fun _ => rfl⟩
  case subu => exact ⟨
    fun _ _ _ => computesWithFlags_subuRule fun _ => rfl,
    fun _ _ _ _ _ => computesWithFlags_subuRule fun _ => rfl,
    fun _ _ => computesWithFlags_subuRule fun _ => rfl⟩

/-! ### Comparisons -/

/-- The flags `f` are those of a comparison of `x` with the number `y` (R140). -/
def ComparisonFlags (x : Word) (y : Int) (f : Flags) : Prop :=
  f.z = decide (x.toInt = y) ∧ f.n = decide (x.toInt < y) ∧ BorrowFlag x.toNat (BitVec.ofInt 32 y).toNat f.c

theorem comparisonFlags_cmpFlags (x y : Word) : ComparisonFlags x y.toInt (cmpFlags x y) := by
  refine ⟨?_, ?_, ?_⟩
  · simp only [cmpFlags, sub_eq_zero]
  · simp only [cmpFlags, sub_neg]
  · rw [BitVec.ofInt_toInt]
    exact subCarry_borrow x y

theorem cmpRule_eq {i : Instr} {k : CReg} {a b : Reg} (h : ∀ latch, ruleOf latch i = cmpRule k a b) (s : State) :
    ruleOf s.mulhi i s.opened = .done (s.opened.setCreg k (cmpFlags (readReg s a) (readReg s b))) := by
  simp only [h, cmpRule, reg_eq_readReg, readReg_opened]

theorem cmpiRule_eq {i : Instr} {k : CReg} {a : Reg} {imm : Word} (h : ∀ latch, ruleOf latch i = cmpiRule k a imm)
    (s : State) : ruleOf s.mulhi i s.opened = .done (s.opened.setCreg k (cmpFlags (readReg s a) imm)) := by
  simp only [h, cmpiRule, reg_eq_readReg, readReg_opened]

theorem comparesInto_cmpRule {i : Instr} {k : CReg} {a b : Reg} (h : ∀ latch, ruleOf latch i = cmpRule k a b) :
    ComparesInto i k fun s f => ComparisonFlags (readReg s a) (readReg s b).toInt f :=
  comparesInto_of (cmpRule_eq h) fun _ => comparisonFlags_cmpFlags _ _

theorem comparesInto_cmpiRule {i : Instr} {k : CReg} {a : Reg} {n : Nat} {imm : BitVec n} (hn : n ≤ 32)
    (h : ∀ latch, ruleOf latch i = cmpiRule k a (sextImm imm)) :
    ComparesInto i k fun s f => ComparisonFlags (readReg s a) imm.toInt f :=
  comparesInto_of (cmpiRule_eq h) fun _ => sextImm_toInt imm hn ▸ comparisonFlags_cmpFlags _ _

/-- Settles O29. -/
theorem compare : Obligations.Compare := by
  unfold Obligations.Compare
  exact ⟨fun _ _ _ => comparesInto_cmpRule fun _ => rfl, fun _ _ => comparesInto_cmpRule fun _ => rfl,
    fun _ _ _ => comparesInto_cmpiRule (by decide) fun _ => rfl, fun _ _ => comparesInto_cmpiRule (by decide) fun _ => rfl⟩

/-- The six conditions on order hold of the flags `f` exactly when their names are true of `a` and `b` (R230). -/
def Orders (f : Flags) (a b : Int) : Prop :=
  condHolds .eq f = some (decide (a = b)) ∧ condHolds .ne f = some (decide (a ≠ b)) ∧
    condHolds .lt f = some (decide (a < b)) ∧ condHolds .egt f = some (decide (a ≥ b)) ∧
    condHolds .gt f = some (decide (a > b)) ∧ condHolds .elt f = some (decide (a ≤ b))

/-- Z and N of a comparison, which are never both set, decide every order. -/
theorem orders_cmpFlags (x y : Word) : Orders (cmpFlags x y) x.toInt y.toInt := by
  obtain ⟨hz, hn, -⟩ := comparisonFlags_cmpFlags x y
  simp only [Orders, condHolds, hz, hn]
  rcases lt_trichotomy x.toInt y.toInt with h | h | h
  · simp [h, h.ne, h.le, h.not_ge, h.not_gt]
  · simp [h]
  · simp [h, h.ne', h.le, h.not_ge, h.not_gt]

/-- Settles O25: the condition register named holds the flags of the comparison. -/
theorem conditionAfterCompare : Obligations.ConditionAfterCompare := by
  unfold Obligations.ConditionAfterCompare
  intro orders s t
  refine ⟨fun k a b h => ?_, fun a b h => ?_, fun k a imm h => ?_, fun a imm h => ?_⟩
  · rw [eq_close_of_next rfl h (cmpRule_eq (fun _ => rfl) s), State.close_creg, State.setCreg_creg, if_pos rfl]
    exact orders_cmpFlags _ _
  · rw [eq_close_of_next rfl h (cmpRule_eq (fun _ => rfl) s), State.close_creg, State.setCreg_creg, if_pos rfl]
    exact orders_cmpFlags _ _
  · rw [eq_close_of_next rfl h (cmpiRule_eq (fun _ => rfl) s), State.close_creg, State.setCreg_creg, if_pos rfl,
      ← sextImm_toInt imm (by decide)]
    exact orders_cmpFlags _ _
  · rw [eq_close_of_next rfl h (cmpiRule_eq (fun _ => rfl) s), State.close_creg, State.setCreg_creg, if_pos rfl,
      ← sextImm_toInt imm (by decide)]
    exact orders_cmpFlags _ _

end Sys2Proof.Machine
end

section
/-! PROOFS. Constants, bit fields, shifts and 32-bit products (spec/41_logical_move.md to spec/43_multiply.md): each rule by
what it computes, for any instruction that has it; then the forms of each mnemonic. -/

namespace Sys2Proof.Machine

/-! ### Constants -/

/-- Settles O31. -/
theorem loadConstants : Obligations.LoadConstants := by
  unfold Obligations.LoadConstants
  refine ⟨fun d imm => ?lli, fun d imm => ?lui⟩
  case lli =>
    refine computes_setReg (runsRule_of fun _ => rfl) (fun _ => rfl) fun _ => ?_
    simp only [toWord, BitVec.toNat_setWidth, append_toNat, BitVec.toNat_ofNat]
    omega
  case lui =>
    refine computes_setReg (runsRule_of fun _ => rfl) (fun _ => rfl) fun _ => ?_
    simp only [toWord, BitVec.toNat_setWidth, append_toNat, BitVec.toNat_ofNat]
    omega

/-! ### Bit fields -/

/-- The length and the position that a control value gives (R185). -/
theorem control_toNat (ctl : BitVec 11) :
    (fieldAt ctl 5 6).toNat = ctl.toNat / 32 ∧ (fieldAt ctl 0 5).toNat = ctl.toNat % 32 := by
  have := ctl.isLt
  simp only [fieldAt_toNat]
  omega

/-- Of a control register only bits 10:0 count (R186). -/
theorem controlRegister_toNat (v : Word) :
    (fieldAt v 0 11).toNat / 32 = v.toNat / 32 % 64 ∧ (fieldAt v 0 11).toNat % 32 = v.toNat % 32 := by
  simp only [fieldAt_toNat]
  omega

theorem extractByControl_toNat {v : Word} {ctl : BitVec 11} (h : ctl.toNat % 32 + ctl.toNat / 32 ≤ 32) :
    (extractByControl v ctl).toNat = v.toNat / 2 ^ (ctl.toNat % 32) % 2 ^ (ctl.toNat / 32) := by
  obtain ⟨hlen, hpos⟩ := control_toNat ctl
  rw [extractByControl, extractField_toNat (by omega), hlen, hpos]

/-- The free value past bit 31, by length and position as numbers. -/
def overrunValue (v : Word) (len pos : Nat) : Word := Config.exbfOverrun v (BitVec.ofNat 6 len) (BitVec.ofNat 5 pos)

theorem extractByControl_overrun {v : Word} {ctl : BitVec 11} (h : ¬ ctl.toNat % 32 + ctl.toNat / 32 ≤ 32) :
    extractByControl v ctl = overrunValue v (ctl.toNat / 32) (ctl.toNat % 32) := by
  obtain ⟨hlen, hpos⟩ := control_toNat ctl
  rw [extractByControl, extractField, if_neg (by omega), overrunValue, ← hlen, ← hpos, BitVec.ofNat_toNat,
    BitVec.ofNat_toNat, BitVec.setWidth_eq, BitVec.setWidth_eq]

/-- What `exbfi` and `exbf` leave, within the register and past it alike. -/
theorem writes_exbfiRule {i : Instr} {d a : Reg} {imm : BitVec 11} (h : ∀ latch, ruleOf latch i = exbfiRule d a imm)
    (s : State) (he : Executes i s = true) :
    ∃ t, exec i s = .next t ∧ WritesRegOnly s t d (extractByControl (readReg s a) imm) :=
  ⟨_, exec_done he (by simp only [h, exbfiRule, compute1, reg_eq_readReg, readReg_opened]),
    writesRegOnly_setReg s d _⟩

theorem writes_exbfRule {i : Instr} {d a b : Reg} (h : ∀ latch, ruleOf latch i = exbfRule d a b)
    (s : State) (he : Executes i s = true) :
    ∃ t, exec i s = .next t ∧ WritesRegOnly s t d (extractByControl (readReg s a) (fieldAt (readReg s b) 0 11)) :=
  ⟨_, exec_done he (by simp only [h, exbfRule, compute2, reg_eq_readReg, readReg_opened]),
    writesRegOnly_setReg s d _⟩

/-- `exbf` of a field within the register. -/
theorem exbfRule_within {i : Instr} {d a b : Reg} (h : ∀ latch, ruleOf latch i = exbfRule d a b) (s : State)
    (he : Executes i s = true) (hw : (readReg s b).toNat % 32 + (readReg s b).toNat / 32 % 64 ≤ 32) :
    ∃ t v, exec i s = .next t ∧ WritesRegOnly s t d v ∧
      v.toNat = (readReg s a).toNat / 2 ^ ((readReg s b).toNat % 32) % 2 ^ ((readReg s b).toNat / 32 % 64) := by
  obtain ⟨t, ht, hwrites⟩ := writes_exbfRule h s he
  obtain ⟨hlen, hpos⟩ := controlRegister_toNat (readReg s b)
  refine ⟨t, _, ht, hwrites, ?_⟩
  rw [extractByControl_toNat (by omega), hlen, hpos]

/-- `exbf` of a field past bit 31. -/
theorem exbfRule_past {i : Instr} {d a b : Reg} (h : ∀ latch, ruleOf latch i = exbfRule d a b) (s : State)
    (he : Executes i s = true) (hw : ¬ (readReg s b).toNat % 32 + (readReg s b).toNat / 32 % 64 ≤ 32) :
    ∃ t, exec i s = .next t ∧ WritesRegOnly s t d
      (overrunValue (readReg s a) ((readReg s b).toNat / 32 % 64) ((readReg s b).toNat % 32)) := by
  obtain ⟨t, ht, hwrites⟩ := writes_exbfRule h s he
  obtain ⟨hlen, hpos⟩ := controlRegister_toNat (readReg s b)
  rw [extractByControl_overrun (by omega), hlen, hpos] at hwrites
  exact ⟨t, ht, hwrites⟩

/-- Settles O34. -/
theorem bitFields : Obligations.BitFields := by
  unfold Obligations.BitFields
  refine ⟨fun d a imm s he hw => ?exbfi, ?exbf⟩
  case exbfi =>
    obtain ⟨t, ht, hwrites⟩ := writes_exbfiRule (fun _ => rfl) s he
    exact ⟨t, _, ht, hwrites, extractByControl_toNat hw⟩
  case exbf => exact ⟨
    fun _ _ _ => exbfRule_within fun _ => rfl,
    fun _ _ _ _ _ => exbfRule_within fun _ => rfl,
    fun _ _ => exbfRule_within fun _ => rfl⟩

/-- Settles O35: the value is the same function of the source, the length and the position in every form. -/
theorem bitFieldOverrun : Obligations.BitFieldOverrun := by
  unfold Obligations.BitFieldOverrun
  refine ⟨overrunValue, fun d a imm s he hw => ?exbfi, ?exbf⟩
  case exbfi =>
    obtain ⟨t, ht, hwrites⟩ := writes_exbfiRule (fun _ => rfl) s he
    exact ⟨t, ht, extractByControl_overrun hw ▸ hwrites⟩
  case exbf => exact ⟨
    fun _ _ _ => exbfRule_past fun _ => rfl,
    fun _ _ _ _ _ => exbfRule_past fun _ => rfl,
    fun _ _ => exbfRule_past fun _ => rfl⟩

/-! ### Shifts -/

section Shifts
variable {i : Instr} {d a b : Reg}

theorem computes_sllRule (h : ∀ latch, ruleOf latch i = sllRule d a b) : Computes i d fun s v =>
    v.toNat = (readReg s a).toNat * 2 ^ min ((readReg s b).toNat % 64) 32 % 2 ^ 32 :=
  computes_compute2 (runsRule_of h) fun _ => by rw [shiftByReg, shAmt_fieldAt, shiftLeft_toNat]

theorem computes_srlRule (h : ∀ latch, ruleOf latch i = srlRule d a b) : Computes i d fun s v =>
    v.toNat = (readReg s a).toNat / 2 ^ min ((readReg s b).toNat % 64) 32 :=
  computes_compute2 (runsRule_of h) fun _ => by rw [shiftByReg, shAmt_fieldAt, shiftRight_toNat]

theorem computes_sraRule (h : ∀ latch, ruleOf latch i = sraRule d a b) : Computes i d fun s v =>
    v.toInt = (readReg s a).toInt / 2 ^ min ((readReg s b).toNat % 64) 32 :=
  computes_compute2 (runsRule_of h) fun _ => by rw [shiftByReg, shAmt_fieldAt, shiftRightArith_toInt]

/-- A shift by an immediate: 0...32 shifts, 33...63 is refused (R189). -/
theorem shifts_shiftByImm {f : Word → Nat → Word} {imm : BitVec 6} {P : State → Word → Prop}
    (h : ∀ latch, ruleOf latch i = shiftByImm f d a imm) (hP : ∀ s, P s (f (readReg s a) imm.toNat)) :
    (imm.toNat ≤ 32 → Computes i d P) ∧
      (32 < imm.toNat → ∀ s, Executes i s = true → exec i s = .refused .shiftImmediateRange) := by
  refine ⟨fun himm => ?_, fun himm s he => exec_refuse he ?_⟩
  · refine computes_setReg (v := fun s => f (readReg s a) imm.toNat) (runsRule_of h) (fun s => ?_) hP
    simp only [shiftByImm, shiftImmOk, himm, decide_true, if_true, compute1, reg_eq_readReg, readReg_opened]
  · simp [h, shiftByImm, shiftImmOk, himm]

end Shifts

/-- Settles O36. -/
theorem registerShifts : Obligations.RegisterShifts := by
  unfold Obligations.RegisterShifts
  refine ⟨?sll, ?srl, ?sra⟩
  case sll => exact ⟨fun _ _ _ => computes_sllRule fun _ => rfl, fun _ _ _ _ _ => computes_sllRule fun _ => rfl,
    fun _ _ => computes_sllRule fun _ => rfl⟩
  case srl => exact ⟨fun _ _ _ => computes_srlRule fun _ => rfl, fun _ _ _ _ _ => computes_srlRule fun _ => rfl,
    fun _ _ => computes_srlRule fun _ => rfl⟩
  case sra => exact ⟨fun _ _ _ => computes_sraRule fun _ => rfl, fun _ _ _ _ _ => computes_sraRule fun _ => rfl,
    fun _ _ => computes_sraRule fun _ => rfl⟩

/-- Settles O37. -/
theorem immediateShifts : Obligations.ImmediateShifts := by
  unfold Obligations.ImmediateShifts
  refine ⟨?slli, ?srli, ?srai⟩
  case slli => exact ⟨
    fun _ _ imm => shifts_shiftByImm (fun _ => rfl) fun _ => shiftLeft_toNat _ imm.toNat,
    fun _ _ _ _ imm => shifts_shiftByImm (fun _ => rfl) fun _ => shiftLeft_toNat _ imm.toNat,
    fun _ imm => shifts_shiftByImm (fun _ => rfl) fun _ => shiftLeft_toNat _ imm.toNat⟩
  case srli => exact ⟨
    fun _ _ imm => shifts_shiftByImm (fun _ => rfl) fun _ => shiftRight_toNat _ imm.toNat,
    fun _ _ _ _ imm => shifts_shiftByImm (fun _ => rfl) fun _ => shiftRight_toNat _ imm.toNat,
    fun _ imm => shifts_shiftByImm (fun _ => rfl) fun _ => shiftRight_toNat _ imm.toNat⟩
  case srai => exact ⟨
    fun _ _ imm => shifts_shiftByImm (fun _ => rfl) fun _ => shiftRightArith_toInt _ imm.toNat,
    fun _ _ _ _ imm => shifts_shiftByImm (fun _ => rfl) fun _ => shiftRightArith_toInt _ imm.toNat,
    fun _ imm => shifts_shiftByImm (fun _ => rfl) fun _ => shiftRightArith_toInt _ imm.toNat⟩

/-! ### Products of words -/

/-- The state after a rule that writes the product `p`. -/
def productState (s : State) (d : Reg) (p : Int) : State :=
  s.close { s.opened.setReg d (fieldAt (product64 p) 0 32) with mulhi := some (fieldAt (product64 p) 32 32) }

/-- The frame of a product: its low half in the register, its high half in the latch. -/
theorem computesWithLatch_of {i : Instr} {d : Reg} {P : State → Word → Word → Prop} {p : State → Int}
    (h : ∀ s : State, ruleOf s.mulhi i s.opened = writeProduct d (p s) s.opened)
    (hP : ∀ s v high, high ++ v = product64 (p s) → P s v high) : ComputesWithLatch i d P := by
  intro s he
  refine ⟨productState s d (p s), _, _, exec_done he (h s), hP s _ _ (product64_split (p s)), fun r => ?_,
    by simp [productState], retires_close (by simp) (by simp), fun k => ?_, fun a => ?_, by simp [productState], ?_⟩
  · simpa [productState] using writesReg_close s d _ r
  · simp [productState, State.creg]
  · simp [productState]
  · simp [productState, SameSpecial]

section Products
variable {i : Instr} {d a b : Reg}

/-- The product of two signed words fits in 64 bits. -/
theorem mul_toInt_bounds (x y : Word) : -2 ^ 63 ≤ x.toInt * y.toInt ∧ x.toInt * y.toInt < 2 ^ 63 := by
  have hx : |x.toInt| ≤ 2 ^ 31 := abs_le.2 ⟨x.le_toInt, x.toInt_lt.le⟩
  have hy : |y.toInt| ≤ 2 ^ 31 := abs_le.2 ⟨y.le_toInt, y.toInt_lt.le⟩
  have hxy : |x.toInt * y.toInt| ≤ 2 ^ 31 * 2 ^ 31 :=
    (abs_mul _ _).trans_le (mul_le_mul hx hy (abs_nonneg _) (by norm_num))
  obtain ⟨hl, hu⟩ := abs_le.1 hxy
  constructor <;> omega

/-- The product of an unsigned word and a signed one fits in 64 bits. -/
theorem mul_toNat_toInt_bounds (x y : Word) : -2 ^ 63 ≤ (x.toNat : Int) * y.toInt ∧ (x.toNat : Int) * y.toInt < 2 ^ 63 := by
  have hx : |(x.toNat : Int)| ≤ 2 ^ 32 - 1 := by
    have := x.isLt
    rw [Nat.abs_cast]
    omega
  have hy : |y.toInt| ≤ 2 ^ 31 := abs_le.2 ⟨y.le_toInt, y.toInt_lt.le⟩
  have hxy : |(x.toNat : Int) * y.toInt| ≤ (2 ^ 32 - 1) * 2 ^ 31 :=
    (abs_mul _ _).trans_le (mul_le_mul hx hy (abs_nonneg _) (by norm_num))
  obtain ⟨hl, hu⟩ := abs_le.1 hxy
  constructor <;> omega

theorem muliRule_eq {n : Nat} {imm : BitVec n} (hn : n ≤ 32) (h : ∀ latch, ruleOf latch i = muliRule d a (sextImm imm))
    (s : State) : ruleOf s.mulhi i s.opened = writeProduct d ((readReg s a).toInt * imm.toInt) s.opened := by
  simp only [h, muliRule, reg_eq_readReg, readReg_opened, sextImm_toInt imm hn]

theorem mulsRule_eq (h : ∀ latch, ruleOf latch i = mulsRule d a b) (s : State) :
    ruleOf s.mulhi i s.opened = writeProduct d ((readReg s a).toInt * (readReg s b).toInt) s.opened := by
  simp only [h, mulsRule, reg_eq_readReg, readReg_opened]

theorem muluRule_eq (h : ∀ latch, ruleOf latch i = muluRule d a b) (s : State) :
    ruleOf s.mulhi i s.opened = writeProduct d ((readReg s a).toNat * (readReg s b).toNat : Int) s.opened := by
  simp only [h, muluRule, reg_eq_readReg, readReg_opened]

theorem mulusRule_eq (h : ∀ latch, ruleOf latch i = mulusRule d a b) (s : State) :
    ruleOf s.mulhi i s.opened = writeProduct d ((readReg s a).toNat * (readReg s b).toInt) s.opened := by
  simp only [h, mulusRule, reg_eq_readReg, readReg_opened]

theorem computesWithLatch_muliRule {n : Nat} {imm : BitVec n} (hn : n ≤ 32)
    (h : ∀ latch, ruleOf latch i = muliRule d a (sextImm imm)) : ComputesWithLatch i d fun s v high =>
    (high ++ v).toInt = (readReg s a).toInt * imm.toInt := by
  refine computesWithLatch_of (muliRule_eq hn h) fun s v high hp => ?_
  obtain ⟨hl, hu⟩ := mul_toInt_bounds (readReg s a) (sextImm imm)
  rw [sextImm_toInt imm hn] at hl hu
  exact (congrArg BitVec.toInt hp).trans (product64_toInt hl hu)

theorem computesWithLatch_mulsRule (h : ∀ latch, ruleOf latch i = mulsRule d a b) : ComputesWithLatch i d fun s v high =>
    (high ++ v).toInt = (readReg s a).toInt * (readReg s b).toInt := by
  refine computesWithLatch_of (mulsRule_eq h) fun s v high hp => ?_
  obtain ⟨hl, hu⟩ := mul_toInt_bounds (readReg s a) (readReg s b)
  exact (congrArg BitVec.toInt hp).trans (product64_toInt hl hu)

theorem computesWithLatch_muluRule (h : ∀ latch, ruleOf latch i = muluRule d a b) : ComputesWithLatch i d fun s v high =>
    (high ++ v).toNat = (readReg s a).toNat * (readReg s b).toNat := by
  refine computesWithLatch_of (muluRule_eq h) fun s v high hp => ?_
  have hlt : (readReg s a).toNat * (readReg s b).toNat < 2 ^ 32 * 2 ^ 32 :=
    Nat.mul_lt_mul'' (readReg s a).isLt (readReg s b).isLt
  rw [← Nat.cast_mul] at hp
  exact (congrArg BitVec.toNat hp).trans (product64_toNat hlt)

theorem computesWithLatch_mulusRule (h : ∀ latch, ruleOf latch i = mulusRule d a b) : ComputesWithLatch i d fun s v high =>
    (high ++ v).toInt = (readReg s a).toNat * (readReg s b).toInt := by
  refine computesWithLatch_of (mulusRule_eq h) fun s v high hp => ?_
  obtain ⟨hl, hu⟩ := mul_toNat_toInt_bounds (readReg s a) (readReg s b)
  exact (congrArg BitVec.toInt hp).trans (product64_toInt hl hu)

end Products

/-- Settles O38. -/
theorem multiply : Obligations.Multiply := by
  unfold Obligations.Multiply
  refine ⟨?muli, ?muls, ?mulu, ?mulus⟩
  case muli => exact ⟨
    fun _ _ _ => computesWithLatch_muliRule (by decide) fun _ => rfl,
    fun _ _ _ _ _ => computesWithLatch_muliRule (by decide) fun _ => rfl,
    fun _ _ => computesWithLatch_muliRule (by decide) fun _ => rfl⟩
  case muls => exact ⟨
    fun _ _ _ => computesWithLatch_mulsRule fun _ => rfl,
    fun _ _ _ _ _ => computesWithLatch_mulsRule fun _ => rfl,
    fun _ _ => computesWithLatch_mulsRule fun _ => rfl⟩
  case mulu => exact ⟨
    fun _ _ _ => computesWithLatch_muluRule fun _ => rfl,
    fun _ _ _ _ _ => computesWithLatch_muluRule fun _ => rfl,
    fun _ _ => computesWithLatch_muluRule fun _ => rfl⟩
  case mulus => exact ⟨
    fun _ _ _ => computesWithLatch_mulusRule fun _ => rfl,
    fun _ _ _ _ _ => computesWithLatch_mulusRule fun _ => rfl,
    fun _ _ => computesWithLatch_mulusRule fun _ => rfl⟩

/-- The rule of `mulhi` with a latch and without (R218). -/
theorem takesLatch_mulhiRule {i : Instr} {d : Reg} (h : ∀ latch, ruleOf latch i = mulhiRule d latch) (s : State)
    (he : Executes i s = true) :
    (∀ high, s.mulhi = some high → ∃ t, exec i s = .next t ∧ WritesRegOnly s t d high) ∧
      (s.mulhi = none → exec i s = .refused .mulhiWithoutMultiply) := by
  refine ⟨fun high hm => ⟨_, exec_done he ?_, writesRegOnly_setReg s d high⟩, fun hm => exec_refuse he ?_⟩
  · rw [h, hm]
    rfl
  · rw [h, hm]
    rfl

/-- Settles O40. -/
theorem multiplyHigh : Obligations.MultiplyHigh := by
  unfold Obligations.MultiplyHigh
  exact ⟨fun _ => takesLatch_mulhiRule fun _ => rfl, fun _ _ _ => takesLatch_mulhiRule fun _ => rfl,
    fun _ => takesLatch_mulhiRule fun _ => rfl⟩

/-- The registers after a product depend on its low word alone. -/
theorem productState_regs {s : State} {d : Reg} {p q : Int} (h : BitVec.ofInt 32 p = BitVec.ofInt 32 q) :
    (productState s d p).set1 = (productState s d q).set1 ∧ (productState s d p).set2 = (productState s d q).set2 := by
  simp only [productState, State.close_set1, State.close_set2, product64_low, h, and_self]

/-- The low word of the product of two words is their product modulo 2^32, whichever way each is read (R219). -/
theorem ofInt_mul_low (x y : Word) : BitVec.ofInt 32 (x.toInt * y.toInt) = x * y ∧
    BitVec.ofInt 32 (x.toNat * y.toNat : Int) = x * y ∧ BitVec.ofInt 32 (x.toNat * y.toInt) = x * y := by
  simp only [BitVec.ofInt_mul, BitVec.ofInt_toInt, BitVec.ofInt_natCast, BitVec.ofNat_toNat, BitVec.setWidth_eq, and_self]

/-- Settles O41. -/
theorem lowWordsAgree : Obligations.LowWordsAgree := by
  unfold Obligations.LowWordsAgree
  intro s d a b t u v ht hu hv
  obtain ⟨hss, huu, hus⟩ := ofInt_mul_low (readReg s a) (readReg s b)
  obtain rfl : t = productState s d _ := eq_close_of_next rfl ht (mulsRule_eq (fun _ => rfl) s)
  obtain rfl : u = productState s d _ := eq_close_of_next rfl hu (muluRule_eq (fun _ => rfl) s)
  obtain rfl : v = productState s d _ := eq_close_of_next rfl hv (mulusRule_eq (fun _ => rfl) s)
  obtain ⟨hu1, hu2⟩ := productState_regs (s := s) (d := d) (huu.trans hss.symm)
  obtain ⟨hv1, hv2⟩ := productState_regs (s := s) (d := d) (hus.trans hss.symm)
  exact ⟨hu1, hu2, hv1, hv2⟩

end Sys2Proof.Machine
end

section
/-! PROOFS. What is refused in a slot (R234 b, c, R321 to R323), and conditional forms that are skipped or whose condition
is inconsistent (R230, R232, R234 a). -/

namespace Sys2Proof.Machine

/-! ### In a slot -/

section Slot
variable {i : Instr} {s : State} {r : Refusal} {e : Exc} {P : State → Prop}

/-- An instruction that may not stand where it is. -/
theorem exec_of_slotCheck (h : slotCheck i.slotRole s.pend = some r) : exec i s = .refused r := by
  rw [exec_eq]
  exact runInstr_slot h

/-- A rule that raises an exception is refused in a slot. -/
theorem refusedInSlotWhere_of (h : ∀ s : State, P s → ruleOf s.mulhi i s.opened = .raise e) : RefusedInSlotWhere i P :=
  fun s he hp hs => exec_raise_slot he hp (h s hs)

end Slot

/-- Settles O21. -/
theorem slotRestrictions : Obligations.SlotRestrictions := by
  unfold Obligations.SlotRestrictions
  refine ⟨fun s tr i hp hi => ?bearing, fun s tr i hp hi hn => ?plain, ?trap, ?trapShort, fun imm => ?chrs,
    fun imm => ?chrsShort, ?add, ?addi, ?sub⟩
  case bearing => exact exec_of_slotCheck (by simp only [hp, hi, slotCheck])
  case plain => exact exec_of_slotCheck (by simp only [hp, hi, slotCheck, hn, if_true])
  case trap | trapShort => exact refusedInSlotWhere_of fun _ _ => rfl
  case chrs | chrsShort => exact refusedInSlotWhere_of fun s hu => chrsRule_user (s := s.opened) hu
  case add => exact add_signedRule.imp fun _ _ _ _ h => h.refused
  case addi => exact addi_signedRule.imp fun _ _ _ _ h => h.refused
  case sub => exact sub_signedRule.imp fun _ _ _ _ h => h.refused

/-! ### Conditional forms whose condition does not hold -/

theorem skipOf_of_bearing {i : Instr} (h : i.slotRole = .bearing) (s : State) :
    skipOf i s = s.transfer none none (isSystemCall i) := by
  simp only [skipOf, h]

theorem skipOf_of_not_bearing {i : Instr} (h : i.slotRole ≠ .bearing) (s : State) : skipOf i s = s := by
  cases hr : i.slotRole with
  | bearing => exact absurd hr h
  | plain | filler => simp only [skipOf, hr, id]

/-- A slot-bearing instruction fits only outside a slot. -/
theorem pend_none_of_fitsSlot {i : Instr} {s : State} (hr : i.slotRole = .bearing) (h : fitsSlot i s = true) :
    s.pend = none := by
  cases hp : s.pend with
  | none => rfl
  | some tr => simp [fitsSlot, hp, hr] at h

/-- Settles O22. -/
theorem skippedForms : Obligations.SkippedForms := by
  unfold Obligations.SkippedForms
  intro i s cc k hi hf hc
  refine ⟨_, exec_skipped hi hf hc, fun hr => ?_, fun hr => ?_⟩
  · rw [skipOf_of_not_bearing hr]
    exact changesNothing_idle s
  · rw [skipOf_of_bearing hr]
    exact transfersOnly_transfer (pend_none_of_fitsSlot hr hf) _ _ _

/-! ### The inconsistent condition -/

theorem condHolds_of_ordered {cc : Cond} {f : Flags} (hcc : cc ∈ [.lt, .egt, .gt, .elt]) (hz : f.z = true) (hn : f.n = true) :
    condHolds cc f = none := by
  have hcases : cc = .lt ∨ cc = .egt ∨ cc = .gt ∨ cc = .elt := by simpa using hcc
  rcases hcases with rfl | rfl | rfl | rfl <;> simp [condHolds, hz, hn]

theorem condHolds_of_unordered {cc : Cond} (hcc : cc ∈ [.c, .eq, .ne]) (f : Flags) : ∃ b, condHolds cc f = some b := by
  have hcases : cc = .c ∨ cc = .eq ∨ cc = .ne := by simpa using hcc
  rcases hcases with rfl | rfl | rfl <;> exact ⟨_, rfl⟩

/-- An effect other than the refusal of an inconsistent condition. -/
def Consistent (e : Effect) : Prop := e ≠ .refuse .conditionOnInconsistentFlags

theorem consistent_done (t : State) : Consistent (.done t) := nofun

theorem consistent_writeSigned (d : Reg) (e : Int) (s : State) : Consistent (writeSigned d e s) := by
  unfold writeSigned
  split <;> nofun

theorem consistent_copSend (n : CopNum) (op : CopOp) (s : State) : Consistent (copSend n op s) := by
  unfold copSend
  split <;> nofun

theorem consistent_copReceive (n : CopNum) (r d : Reg) (s : State) : Consistent (copReceive n r d s) := by
  unfold copReceive
  split <;> nofun

theorem consistent_shiftByImm (f : Word → Nat → Word) (d a : Reg) (imm : BitVec 6) (s : State) :
    Consistent (shiftByImm f d a imm s) := by
  unfold shiftByImm
  split <;> nofun

theorem consistent_mulhiRule (d : Reg) (latch : Option Word) (s : State) : Consistent (mulhiRule d latch s) := by
  cases latch <;> nofun

theorem consistent_ldRule (d a : Reg) (off : Word) (s : State) : Consistent (ldRule d a off s) := by
  unfold ldRule
  dsimp only
  split
  · split <;> nofun
  · nofun

theorem consistent_stRule (b a : Reg) (off : Word) (s : State) : Consistent (stRule b a off s) := by
  unfold stRule
  dsimp only
  split
  · split <;> nofun
  · nofun

/-- No rule of a conditional form tests a condition of its own: only the guard does. -/
theorem consistent_ruleOf {i : Instr} {p : Cond × CReg} (hi : i.condition? = some p) (latch : Option Word) (s : State) :
    Consistent (ruleOf latch i s) := by
  cases i with
  | addCond | addiCond | subCond => exact consistent_writeSigned _ _ _
  | movctcCond | movdtcCond => exact consistent_copSend _ _ _
  | movcfcCond | movdfcCond => exact consistent_copReceive _ _ _ _
  | slliCond | sraiCond | srliCond => exact consistent_shiftByImm _ _ _ _ _
  | mulhiCond => exact consistent_mulhiRule _ _ _
  | ldCond => exact consistent_ldRule _ _ _ _
  | stCond => exact consistent_stRule _ _ _ _
  | addiuCond | adduCond | andCond | andiCond | conbCond | conhCond | exbCond | exbfCond | exhCond | jalrCond | jmprCond
  | movCond | muliCond | mulsCond | muls16Cond | muluCond | mulu16Cond | mulusCond | mulus16Cond | notCond | orCond
  | oriCond | scallCond | sextCond | sextiCond | sllCond | sraCond | srlCond | subuCond | xorCond =>
    exact consistent_done _
  | _ => cases hi

/-- An instruction that gets to its rule is refused with what its rule is refused with. -/
theorem exec_ne_of_consistent {i : Instr} {s : State} (he : Executes i s = true)
    (h : Consistent (ruleOf s.mulhi i s.opened)) : exec i s ≠ .refused .conditionOnInconsistentFlags := by
  cases hr : ruleOf s.mulhi i s.opened with
  | done u => simp [exec_done he hr]
  | fault f => simp [exec_fault he hr]
  | refuse r =>
    rw [exec_refuse he hr]
    rintro ⟨⟩
    exact h hr
  | raise e =>
    by_cases hp : s.pend = none
    · simp [exec_raise he hp hr]
    · simp [exec_raise_slot he hp hr]

/-- Settles O23. -/
theorem inconsistentCondition : Obligations.InconsistentCondition := by
  unfold Obligations.InconsistentCondition
  intro i s cc k hi hf hz hn
  refine ⟨fun hcc => exec_inconsistent hi hf (condHolds_of_ordered hcc hz hn), fun hcc => ?_⟩
  obtain ⟨holds, hholds⟩ := condHolds_of_unordered hcc (s.creg k)
  cases holds with
  | false => simp [exec_skipped hi hf hholds]
  | true => exact exec_ne_of_consistent (executes_of_condition hi hf hholds) (consistent_ruleOf hi _ _)

end Sys2Proof.Machine
end

section
/-! PROOFS. Branches and calls (spec/44_control_transfer.md): a slot-bearing rule leaves a transfer to its slot, and a call
the link address besides. -/

namespace Sys2Proof.Machine

/-- Control after a slot-bearing rule (R27, R231). -/
theorem defers_close {s u : State} {tr : Transfer} (h : s.pend = none) (hp : u.psr = s.psr) (hn : u.pend = some tr) :
    Defers s (s.close u) tr :=
  ⟨close_pc_of_none h, (close_psr_of_none h).trans hp, by simpa using hn⟩

/-! ### Branches -/

/-- What a branch does, by its rule. -/
theorem branchesOn_of {n : Nat} {i : Instr} {cc : Cond} {k : CReg} {imm : BitVec n} (hn : n < 32)
    (hr : i.slotRole = .bearing) (h : ∀ latch, ruleOf latch i = branchOn cc k imm) : BranchesOn i cc k imm.toInt := by
  intro s he
  refine ⟨fun taken hc => ⟨_, exec_done he ?_, transfersOnly_transfer (pend_none_of_executes hr he) _ _ _⟩,
    fun hc => exec_refuse he ?_⟩
  · have htarget : s.opened.branchTarget imm = targetOf imm.toInt s := branchTarget_eq s.opened imm hn
    simp only [h, branchOn, State.opened_creg, hc, htarget]
  · simp only [h, branchOn, State.opened_creg, hc]

/-- Settles O42. -/
theorem branches : Obligations.Branches := by
  unfold Obligations.Branches
  refine ⟨?bc, ?begt, ?belt, ?beq, ?bgt, ?blt, ?bne⟩ <;>
    exact ⟨fun _ _ => branchesOn_of (by decide) rfl fun _ => rfl, fun _ => branchesOn_of (by decide) rfl fun _ => rfl⟩

/-! ### Calls -/

/-- The opened state of a call at `s` with the link written and the transfer pending. -/
def callState (s : State) (target : Word) : State :=
  (s.opened.setReg linkReg (s.pc + lengthNow s + lengthNow s)).transfer (some target) none false

/-- A rule that writes the link address and leaves the transfer pending. -/
theorem callsTo_of {i : Instr} {target : State → Word} (hr : i.slotRole = .bearing)
    (h : ∀ s : State, ruleOf s.mulhi i s.opened = .done (callState s (target s))) : CallsTo i target := by
  intro s he
  have hp := pend_none_of_executes hr he
  refine ⟨_, exec_done he (h s), fun r => ?_, defers_close hp (by simp [callState]) (by simp [callState]),
    by simp [callState], fun k => ?_, fun a => by simp [callState], by simp [callState], ?_⟩
  · rw [callState, State.close_set1, State.close_set2, State.transfer_set1, State.transfer_set2, State.setReg_set1,
      State.setReg_set2]
    exact ⟨rfl, rfl⟩
  · simp [callState, State.creg]
  · simp [callState, SameSpecial]

theorem callsTo_jalRule {n : Nat} {i : Instr} {imm : BitVec n} (hn : n < 32) (hr : i.slotRole = .bearing)
    (h : ∀ latch, ruleOf latch i = jalRule imm) : CallsTo i fun s => targetOf imm.toInt s :=
  callsTo_of hr fun s => by
    have htarget : s.opened.branchTarget imm = targetOf imm.toInt s := branchTarget_eq s.opened imm hn
    have hlink : s.opened.link = s.pc + lengthNow s + lengthNow s := link_eq s
    simp only [h, jalRule, hlink, htarget, callState]

/-- The target of `jalr` is what the register held before the link was written (R244). -/
theorem callsTo_jalrRule {i : Instr} {a : Reg} (hr : i.slotRole = .bearing) (h : ∀ latch, ruleOf latch i = jalrRule a) :
    CallsTo i fun s => readReg s a :=
  callsTo_of hr fun s => by
    have hlink : s.opened.link = s.pc + lengthNow s + lengthNow s := link_eq s
    simp only [h, jalrRule, hlink, reg_eq_readReg, readReg_opened, callState]

/-- Settles O44. -/
theorem calls : Obligations.Calls := by
  unfold Obligations.Calls
  refine ⟨?jal, ?jalShort, ?jalr⟩
  case jal => exact fun _ => callsTo_jalRule (by decide) rfl fun _ => rfl
  case jalShort => exact fun _ => callsTo_jalRule (by decide) rfl fun _ => rfl
  case jalr => exact ⟨fun _ => callsTo_jalrRule rfl fun _ => rfl, fun _ _ _ => callsTo_jalrRule rfl fun _ => rfl,
    fun _ => callsTo_jalrRule rfl fun _ => rfl⟩

end Sys2Proof.Machine
end

section
/-! PROOFS. `ld` and `st` (spec/45_load_store.md): the three forms of each have one rule, and what that rule does depends on
the addressed word alone. -/

namespace Sys2Proof.Machine

theorem MemForms.imp {u : Reg → Reg → BitVec 15 → Instr} {c : Cond → CReg → Reg → Reg → BitVec 9 → Instr}
    {h : RegS → RegS → BitVec 4 → Instr} {P Q : Instr → Reg → Reg → Word → Prop}
    (hPQ : ∀ i d a off, P i d a off → Q i d a off)
    (hP : MemForms u c h P) : MemForms u c h Q :=
  ⟨fun _ _ _ => hPQ _ _ _ _ (hP.1 _ _ _), fun _ _ _ _ _ => hPQ _ _ _ _ (hP.2.1 _ _ _ _ _),
    fun _ _ _ => hPQ _ _ _ _ (hP.2.2 _ _ _)⟩

theorem ld_rule : MemForms .ld .ldCond .ldShort fun i d base off => ∀ latch, ruleOf latch i = ldRule d base off :=
  ⟨fun _ _ _ _ => rfl, fun _ _ _ _ _ _ => rfl, fun _ _ _ _ => rfl⟩

theorem st_rule : MemForms .st .stCond .stShort fun i b base off => ∀ latch, ruleOf latch i = stRule b base off :=
  ⟨fun _ _ _ _ => rfl, fun _ _ _ _ _ _ => rfl, fun _ _ _ _ => rfl⟩

/-! ### Loads -/

section LoadRule
variable {i : Instr} {d base : Reg} {off : Word} {s : State}

/-- A load of a word that holds a value. -/
theorem exec_load {v : Word} (h : ∀ latch, ruleOf latch i = ldRule d base off) (he : Executes i s = true)
    (hm : HoldsMemory s (wordAddress s base off)) (hv : memRead s.dmem (effAddr (s.reg base) off) = some v) :
    exec i s = .next (s.close (s.opened.setReg d v)) :=
  exec_done he ((congrFun (h _) _).trans (ldRule_reads (s := s.opened) hm hv))

end LoadRule

/-- Settles O46. -/
theorem load : Obligations.Load := by
  unfold Obligations.Load
  refine ld_rule.imp fun i d base off h s b3 b2 b1 b0 he hm h3 h2 h1 h0 => ?_
  rw [← effAddr_wordAddress] at h3 h2 h1 h0
  exact ⟨_, exec_load h he hm (memRead_eq _ _ h3 h2 h1 h0), writesRegOnly_setReg s d _⟩

/-! ### Stores -/

/-- The state after a store of register `b` at `base` and `off`. -/
def storeState (s : State) (b base : Reg) (off : Word) : State :=
  s.close { s.opened with dmem := memWrite s.dmem (effAddr (s.reg base) off) (s.reg b) }

/-- Where a store is let through: in memory, and not in the program text unless the memories are separate (R72). -/
def MayStore (s : State) (a : Nat) : Prop := HoldsMemory s a ∧ (¬ IsProgramText s a ∨ s.platform.unified = .separate)

section StoreRule
variable {i : Instr} {b base : Reg} {off : Word} {s : State}

theorem exec_store (h : ∀ latch, ruleOf latch i = stRule b base off) (he : Executes i s = true)
    (hm : MayStore s (wordAddress s base off)) : exec i s = .next (storeState s b base off) :=
  exec_done he ((congrFun (h _) _).trans (stRule_stores (s := s.opened) hm.1 hm.2))

theorem exec_store_invalid (h : ∀ latch, ruleOf latch i = stRule b base off) (he : Executes i s = true)
    (hm : ¬ HoldsMemory s (wordAddress s base off)) : exec i s = .fault .dataAddressInvalid :=
  exec_fault he ((congrFun (h _) _).trans (stRule_invalid (s := s.opened) hm))

theorem exec_store_code (h : ∀ latch, ruleOf latch i = stRule b base off) (he : Executes i s = true)
    (hm : HoldsMemory s (wordAddress s base off)) (ht : IsProgramText s (wordAddress s base off))
    (hu : s.platform.unified ≠ .separate) : exec i s = .refused .storeToCode :=
  exec_refuse he ((congrFun (h _) _).trans (stRule_code (s := s.opened) hm ht hu))

/-- A store that completed was let through. -/
theorem mayStore_of_next {t : State} (h : ∀ latch, ruleOf latch i = stRule b base off) (he : Executes i s = true)
    (hx : exec i s = .next t) : MayStore s (wordAddress s base off) := by
  have hm : HoldsMemory s (wordAddress s base off) := by
    by_contra hm
    simp [exec_store_invalid h he hm] at hx
  refine ⟨hm, ?_⟩
  by_contra hn
  obtain ⟨ht, hu⟩ := not_or.1 hn
  simp [exec_store_code h he hm (not_not.1 ht) hu] at hx

/-- The bytes of a word, from the most significant down. -/
theorem bytesOfWord_getElem? (v : Word) {k : Nat} (hk : k < 4) :
    (bytesOfWord v)[k]? = some (v.extractLsb' (24 - 8 * k) 8) := by
  interval_cases k <;> rfl

/-- A byte of memory after a store. -/
theorem storeState_readByte (a : Nat) : readByte (storeState s b base off).dmem a =
    if wordAddress s base off ≤ a ∧ a < wordAddress s base off + 4 then
      (bytesOfWord (readReg s b))[a - wordAddress s base off]? else readByte s.dmem a := by
  rw [storeState, State.close_dmem, memWrite, readByte_writeBytes, effAddr_wordAddress, bytesOfWord_length, reg_eq_readReg]

/-- The word stored is the register. -/
theorem storeState_memRead : memRead (storeState s b base off).dmem (effAddr (s.reg base) off) = some (readReg s b) := by
  simp only [storeState, State.close_dmem, memRead_memWrite, reg_eq_readReg]

/-- A store leaves the registers alone. -/
theorem storeState_readReg (hp : s.pend = none) (r : Reg) : readReg (storeState s b base off) r = readReg s r := by
  simp [readReg, storeState, close_psr_of_none hp]

end StoreRule

/-- Settles O47. -/
theorem store : Obligations.Store := by
  unfold Obligations.Store
  refine st_rule.imp fun i b base off h s he hm ht => ?_
  refine ⟨storeState s b base off, exec_store h he ⟨hm, ht⟩, fun k hk => ?_, fun a ha => ?_, fun r => by simp [storeState],
    retires_close (by simp) (by simp), by simp [storeState], fun k => by simp [storeState, State.creg],
    by simp [storeState], by simp [storeState, SameSpecial]⟩
  · rw [storeState_readByte, if_pos (by omega), Nat.add_sub_cancel_left, bytesOfWord_getElem? _ hk]
  · rw [storeState_readByte, if_neg (by omega)]

/-- Settles O48. -/
theorem dataStops : Obligations.DataStops := by
  unfold Obligations.DataStops
  refine ⟨ld_rule.imp fun i d base off h s he => ⟨fun hm => ?_, fun k hk hm hv => ?_⟩,
    st_rule.imp fun i b base off h s he => ⟨exec_store_invalid h he, exec_store_code h he⟩⟩
  · exact exec_fault he ((congrFun (h _) _).trans (ldRule_invalid (s := s.opened) hm))
  · rw [← effAddr_wordAddress] at hv
    exact exec_fault he ((congrFun (h _) _).trans (ldRule_uninitialised (s := s.opened) hm (memRead_eq_none hk hv)))

/-- Settles O49: the store moved neither the registers nor the regions, so the load addresses the stored word. -/
theorem loadAfterStore : Obligations.LoadAfterStore := by
  unfold Obligations.LoadAfterStore
  intro s t a base c i j hp hst haddr
  have hmay := mayStore_of_next (st_rule.1 a base i) (executes_of_next rfl hst) hst
  obtain rfl : storeState s a base (i.signExtend 32) = t := by
    have hx := exec_store (st_rule.1 a base i) (executes_of_next rfl hst) hmay
    exact Host.Outcome.next.inj (hx.symm.trans hst)
  set t := storeState s a base (i.signExtend 32) with ht
  have hregs : ∀ r, readReg t r = readReg s r := storeState_readReg hp
  have hword : wordAddress t base (j.signExtend 32) = wordAddress s base (i.signExtend 32) := by
    rw [haddr, wordAddress, wordAddress, hregs]
  have hmem : HoldsMemory t (wordAddress t base (j.signExtend 32)) := by
    rw [hword]
    simpa [HoldsMemory, ht, storeState] using hmay.1
  have heff : effAddr (t.reg base) (j.signExtend 32) = effAddr (s.reg base) (i.signExtend 32) := by
    apply BitVec.eq_of_toNat_eq
    rw [effAddr_wordAddress, effAddr_wordAddress, hword]
  have hread : memRead t.dmem (effAddr (t.reg base) (j.signExtend 32)) = some (readReg s a) := by
    rw [heff]
    exact storeState_memRead
  have hpend : t.pend = none := by simp [ht, storeState]
  exact ⟨_, exec_load (ld_rule.1 c base j) (executes_of_none rfl hpend) hmem hread, writesReg_close t c _⟩

end Sys2Proof.Machine
end

section
/-! PROOFS. System instructions and coprocessor transfers (spec/46_system.md, spec/47_coprocessor.md), and the round trips
through a handler, each put together from what its four instructions leave. -/

namespace Sys2Proof.Machine

/-! ### Frames -/

/-- What is left by a rule that touches neither memory nor the special registers. -/
theorem restSame_close {s u : State} (hn : u.pend = none) (hl : u.mulhi = none) (hm : u.dmem = s.dmem)
    (hs : SameSpecial s u) : RestSame s (s.close u) u.psr :=
  ⟨⟨close_pc s u, close_psr s u, by simpa using hn⟩, by simpa using hl, fun a => by simp [hm], sameSpecial_close hs⟩

section Frames
variable {i : Instr} {s : State}

/-- A rule that makes a new PSR and nothing else. -/
theorem exec_setPsr {p : PSR} (he : Executes i s = true) (h : ruleOf s.mulhi i s.opened = .done { s.opened with psr := p }) :
    ∃ t, exec i s = .next t ∧ SameRegs s t ∧ SameFlags s t ∧ t.copLog = s.copLog ∧ RestSame s t p :=
  ⟨_, exec_done he h, fun r => by simp, fun k => by simp [State.creg], by simp,
    restSame_close rfl rfl rfl ⟨rfl, rfl, rfl, rfl, rfl, rfl, rfl⟩⟩

/-- A rule that always raises an exception where `P` holds. -/
theorem raisesWhere_of {P : State → Prop} {e : Exc} (h : ∀ s : State, P s → ruleOf s.mulhi i s.opened = .raise e) :
    RaisesWhere i P :=
  fun s he hp hs => ⟨_, exec_raise he hp (h s hs), entersException_enter e s⟩

end Frames

theorem forall_mem_pair {α : Type} {P : α → Prop} {a b : α} (ha : P a) (hb : P b) : ∀ i ∈ [a, b], P i :=
  List.forall_mem_cons.2 ⟨ha, List.forall_mem_singleton.2 hb⟩

/-! ### Selection, exceptions, the interrupt enable -/

/-- Settles O50. -/
theorem selectSets : Obligations.SelectSets := by
  unfold Obligations.SelectSets
  intro imm
  exact forall_mem_pair (fun s he hu => exec_setPsr he (chrsRule_super (s := s.opened) hu))
    fun s he hu => exec_setPsr he (chrsRule_super (s := s.opened) hu)

/-- Settles O51. -/
theorem trapsAndViolations : Obligations.TrapsAndViolations := by
  unfold Obligations.TrapsAndViolations
  refine ⟨forall_mem_pair ?_ ?_, fun imm => forall_mem_pair ?_ ?_⟩
  · exact raisesWhere_of fun _ _ => rfl
  · exact raisesWhere_of fun _ _ => rfl
  · exact raisesWhere_of fun s hu => chrsRule_user (s := s.opened) hu
  · exact raisesWhere_of fun s hu => chrsRule_user (s := s.opened) hu

/-- What `di` and `ei` do in each privilege mode. -/
theorem setsInterrupts_of {i : Instr} {ie : Bool} (h : ∀ latch, ruleOf latch i = setInterrupts ie) (s : State)
    (he : Executes i s = true) :
    (s.psr.um = .super → ∃ t, exec i s = .next t ∧ SameRegs s t ∧ SameFlags s t ∧ t.copLog = s.copLog ∧
      RestSame s t { s.psr with ie := ie }) ∧
    (s.psr.um = .user → exec i s = .refused .privilegedInUserMode) :=
  ⟨fun hu => exec_setPsr he ((congrFun (h _) _).trans (setInterrupts_super (s := s.opened) hu)),
    fun hu => exec_refuse he ((congrFun (h _) _).trans (setInterrupts_user (s := s.opened) hu))⟩

/-- Settles O52. -/
theorem interruptEnable : Obligations.InterruptEnable := by
  unfold Obligations.InterruptEnable
  exact ⟨setsInterrupts_of fun _ => rfl, setsInterrupts_of fun _ => rfl, setsInterrupts_of fun _ => rfl,
    setsInterrupts_of fun _ => rfl⟩

/-! ### Saving and restoring the flags -/

theorem computes_sconRule {i : Instr} {d : Reg} (h : ∀ latch, ruleOf latch i = sconRule d) : Computes i d fun s v =>
    (∀ k : CReg, v.getLsbD (3 * k.toNat + 2) = (s.creg k).z ∧ v.getLsbD (3 * k.toNat + 1) = (s.creg k).n ∧
      v.getLsbD (3 * k.toNat) = (s.creg k).c) ∧ v.toNat < 2 ^ 24 :=
  computes_setReg (runsRule_of h) (fun _ => rfl) fun s => ⟨packFlags_bits s.cregs, packFlags_lt s.cregs⟩

/-- The state after `rcon` of register `a`. -/
def restoredState (s : State) (a : Reg) : State := s.close { s.opened with cregs := unpackFlags (readReg s a) }

theorem exec_rconRule {i : Instr} {a : Reg} {s : State} (h : ∀ latch, ruleOf latch i = rconRule a)
    (he : Executes i s = true) : exec i s = .next (restoredState s a) :=
  exec_done he (by simp only [h, rconRule, reg_eq_readReg, readReg_opened])

theorem restoredState_creg (s : State) (a : Reg) (k : CReg) :
    (restoredState s a).creg k = (unpackFlags (readReg s a))[k.toNat]'k.isLt := by
  simp [restoredState, State.creg]

theorem restores_rconRule {i : Instr} {a : Reg} (h : ∀ latch, ruleOf latch i = rconRule a) (s : State)
    (he : Executes i s = true) : ∃ t, exec i s = .next t ∧
      (∀ k : CReg, t.creg k = ⟨(readReg s a).getLsbD (3 * k.toNat + 2), (readReg s a).getLsbD (3 * k.toNat + 1),
        (readReg s a).getLsbD (3 * k.toNat)⟩) ∧ SameRegs s t ∧ t.copLog = s.copLog ∧ RestSame s t s.psr :=
  ⟨restoredState s a, exec_rconRule h he, fun k => (restoredState_creg s a k).trans (unpackFlags_get _ k),
    fun r => by simp [restoredState], by simp [restoredState],
    restSame_close rfl rfl rfl ⟨rfl, rfl, rfl, rfl, rfl, rfl, rfl⟩⟩

/-- Settles O53. -/
theorem saveAndRestoreFlags : Obligations.SaveAndRestoreFlags := by
  unfold Obligations.SaveAndRestoreFlags
  exact ⟨fun _ => computes_sconRule fun _ => rfl, fun _ => computes_sconRule fun _ => rfl,
    fun _ => restores_rconRule fun _ => rfl, fun _ => restores_rconRule fun _ => rfl⟩

/-- The register written is the register read where the two selections agree. -/
theorem readReg_of_writesReg {s t : State} {d : Reg} {v : Word} (h : WritesReg s t d v) (hsel : t.psr.rsrd = s.psr.rswr) :
    readReg t d = v := by
  obtain ⟨h1, h2⟩ := h d
  rw [readReg, hsel, h1, h2]
  cases s.psr.rswr <;> simp

/-- Settles O54: the register still holds the saved flags, and restoring undoes saving. -/
theorem saveThenRestore : Obligations.SaveThenRestore := by
  unfold Obligations.SaveThenRestore
  intro s t u v r hp hsel hs hr hu k
  obtain rfl : t = s.close (s.opened.setReg r (packFlags s.cregs)) := eq_close_of_next rfl hs rfl
  have hsaved : readReg u r = packFlags s.cregs := by
    rw [hr]
    exact readReg_of_writesReg (writesReg_close s r _) (by simpa [close_psr_of_none hp] using hsel)
  obtain rfl : restoredState u r = v :=
    Host.Outcome.next.inj ((exec_rconRule (fun _ => rfl) (executes_of_next rfl hu)).symm.trans hu)
  rw [restoredState_creg, hsaved]
  simp only [unpackFlags_packFlags, State.creg]

/-! ### System calls and returns -/

/-- The opened state of a system call at `s` with its transfer pending. -/
def systemCallState (s : State) : State :=
  ({ s.opened with psr2 := s.psr }.setSr31 (s.pc + lengthNow s + lengthNow s)).transfer (some Config.sysAddr)
    (some superDefault) true

theorem callsSystem_of {i : Instr} (hr : i.slotRole = .bearing) (h : ∀ latch, ruleOf latch i = systemCall) :
    CallsSystem i := by
  intro s he
  have hp := pend_none_of_executes hr he
  have hlink : s.opened.link = s.pc + lengthNow s + lengthNow s := link_eq s
  refine ⟨s.close (systemCallState s), exec_done he ?_, by simp [systemCallState], fun r => ?_,
    defers_close hp (by simp [systemCallState]) (by simp [systemCallState]), by simp [systemCallState],
    fun k => by simp [systemCallState, State.creg], fun a => by simp [systemCallState], by simp [systemCallState],
    by simp [systemCallState], by simp [systemCallState], by simp [systemCallState], by simp [systemCallState],
    by simp [systemCallState], by simp [systemCallState]⟩
  · rw [h, systemCall, hlink]
    rfl
  · simp [systemCallState, linkReg]

/-- Settles O55. -/
theorem systemCall_forms : Obligations.SystemCall := by
  unfold Obligations.SystemCall
  exact ⟨callsSystem_of rfl fun _ => rfl, fun _ _ => callsSystem_of rfl fun _ => rfl, callsSystem_of rfl fun _ => rfl⟩

/-- What `retu` does in each privilege mode. -/
theorem returnsToUser_of {i : Instr} (hr : i.slotRole = .bearing) (h : ∀ latch, ruleOf latch i = returnToUser) (s : State)
    (he : Executes i s = true) :
    (s.psr.um = .super → ∃ t, exec i s = .next t ∧
      TransfersOnly s t ⟨some (regOf s.set2 31#5), some ⟨.user, s.psr2.ie, s.psr2.il, .set1, .set1⟩, true⟩) ∧
    (s.psr.um = .user → exec i s = .refused .privilegedInUserMode) :=
  ⟨fun hu => ⟨_, exec_done he ((congrFun (h _) _).trans (returnToUser_super (s := s.opened) hu)),
      transfersOnly_transfer (pend_none_of_executes hr he) _ _ _⟩,
    fun hu => exec_refuse he ((congrFun (h _) _).trans (returnToUser_user (s := s.opened) hu))⟩

/-- The opened state of a `reti` at `s` that returns to `e`. -/
def popState (s : State) (e : StackEntry) (rest : List StackEntry) : State :=
  { s.opened with hwstack := rest }.transfer (some e.pc) (some e.psr) true

section InterruptReturn
variable {i : Instr} {s : State}

theorem exec_pop {e : StackEntry} {rest : List StackEntry} (h : ∀ latch, ruleOf latch i = returnFromInterrupt)
    (he : Executes i s = true) (hu : s.psr.um = .super) (hs : s.hwstack = e :: rest) :
    exec i s = .next (s.close (popState s e rest)) :=
  exec_done he ((congrFun (h _) _).trans (returnFromInterrupt_super (s := s.opened) hu hs))

/-- What `reti` does in each privilege mode. -/
theorem returnsFromInterrupt_of (hr : i.slotRole = .bearing) (h : ∀ latch, ruleOf latch i = returnFromInterrupt) (s : State)
    (he : Executes i s = true) :
    (s.psr.um = .super → ∀ e rest, s.hwstack = e :: rest → ∃ t, exec i s = .next t ∧ t.hwstack = rest ∧
      Defers s t ⟨some e.pc, some e.psr, true⟩ ∧ SameRegs s t ∧ SameFlags s t ∧ SameMem s t ∧ t.mulhi = none ∧
      t.copLog = s.copLog ∧ t.psr2 = s.psr2 ∧ t.epc = s.epc ∧ t.intpend = s.intpend ∧ t.imem = s.imem ∧
      t.platform = s.platform ∧ t.env = s.env) ∧
    (s.psr.um = .super → s.hwstack = [] → exec i s = .refused .hwStackUnderflow) ∧
    (s.psr.um = .user → exec i s = .refused .privilegedInUserMode) := by
  refine ⟨fun hu e rest hs => ⟨_, exec_pop h he hu hs, by simp [popState],
      defers_close (pend_none_of_executes hr he) (by simp [popState]) (by simp [popState]), fun r => by simp [popState],
      fun k => by simp [popState, State.creg], fun a => by simp [popState], ?_⟩,
    fun hu hs => exec_refuse he ((congrFun (h _) _).trans (returnFromInterrupt_empty (s := s.opened) hu hs)),
    fun hu => exec_refuse he ((congrFun (h _) _).trans (returnFromInterrupt_user (s := s.opened) hu))⟩
  simp [popState]

end InterruptReturn

/-- Settles O56. -/
theorem returns : Obligations.Returns := by
  unfold Obligations.Returns
  exact ⟨forall_mem_pair (returnsToUser_of rfl fun _ => rfl) (returnsToUser_of rfl fun _ => rfl),
    forall_mem_pair (returnsFromInterrupt_of rfl fun _ => rfl) (returnsFromInterrupt_of rfl fun _ => rfl)⟩

/-- Bit 5 of a six-bit immediate is set from 32 on. -/
theorem getLsbD_five (imm : BitVec 6) : imm.getLsbD 5 = decide (32 ≤ imm.toNat) := by
  revert imm
  decide

theorem transfersTo_swmRule {i : Instr} {imm : BitVec 6} (hr : i.slotRole = .bearing)
    (h : ∀ latch, ruleOf latch i = swmRule imm) :
    TransfersTo i fun s => ⟨none, some { s.psr with il := if 32 ≤ imm.toNat then .il32 else .il16 }, true⟩ :=
  transfersTo_transfer hr (runsRule_of h) fun s => by
    simp only [swmRule, getLsbD_five, decide_eq_true_eq, State.opened_psr]

/-- Settles O57. -/
theorem switchMode : Obligations.SwitchMode := by
  unfold Obligations.SwitchMode
  exact fun _ => forall_mem_pair (transfersTo_swmRule rfl fun _ => rfl) (transfersTo_swmRule rfl fun _ => rfl)

/-! ### Round trips -/

/-- A `nop` in the slot of a transfer with a target and a new PSR. -/
theorem nop_in_slot {s : State} {target : Word} {p : PSR} {n : Bool} (hp : s.pend = some ⟨some target, some p, n⟩) :
    ∃ t, exec .nop s = .next t ∧ ChangesNothing s t ∧ t.pc = target ∧ t.psr = p := by
  obtain ⟨t, ht, hregs, ⟨hpc, hpsr, hpend⟩, hrest⟩ := (nopIdles s).1
  exact ⟨t, ht, ⟨hregs, ⟨hpc, hpsr, hpend⟩, hrest⟩, by rw [hpc, nextPc, hp], by rw [hpsr, nextPsr, hp]⟩

/-- The PSR of user mode is its mode, its interrupt enable and its length mode (R22). -/
theorem PSR.eq_of_user {p : PSR} (hu : p.um = .user) (hl : p.Legal) : p = ⟨.user, p.ie, p.il, .set1, .set1⟩ := by
  obtain ⟨hrd, hwr⟩ := hl hu
  obtain ⟨um, ie, il, rsrd, rswr⟩ := p
  simp_all

/-- Settles O58. -/
theorem systemCallReturns : Obligations.SystemCallReturns := by
  unfold Obligations.SystemCallReturns
  intro s hu hl hp
  obtain ⟨a, ha, hapsr2, hasr31, ⟨-, -, hapend⟩, -, haflags, hamem, -⟩ := systemCall_forms.1 s (executes_of_none rfl hp)
  obtain ⟨b, hb, ⟨hbregs, ⟨-, -, hbpend⟩, -, hbflags, hbmem, -, hbpsr2, -⟩, hbpc, hbpsr⟩ := nop_in_slot hapend
  have hbuser : b.psr.um = .super := by rw [hbpsr]; rfl
  obtain ⟨c, hc, hcregs, ⟨-, -, hcpend⟩, -, hcflags, hcmem, -⟩ :=
    (returnsToUser_of (i := .retu) rfl (fun _ => rfl) b (executes_of_none rfl hbpend)).1 hbuser
  obtain ⟨d, hd, ⟨hdregs, ⟨-, -, hdpend⟩, -, hdflags, hdmem, -⟩, hdpc, hdpsr⟩ := nop_in_slot hcpend
  have hregs : ∀ r, regOf d.set1 r = regOf a.set1 r ∧ regOf d.set2 r = regOf a.set2 r := fun r =>
    ⟨(hdregs r).1.trans ((hcregs r).1.trans (hbregs r).1), (hdregs r).2.trans ((hcregs r).2.trans (hbregs r).2)⟩
  refine ⟨a, b, c, d, ha, hb, hbpc, hbpsr, hc, hd, ?_, ?_, hdpend, fun r => ?_, fun k => ?_, fun x => ?_⟩
  · rw [hdpc, (hbregs 31#5).2, (hasr31 31#5).2, if_pos rfl]
  · rw [hdpsr, hbpsr2, hapsr2]
    exact (PSR.eq_of_user hu hl).symm
  · rw [(hregs r).1, (hregs r).2]
    exact hasr31 r
  · exact (hdflags k).trans ((hcflags k).trans ((hbflags k).trans (haflags k)))
  · exact (hdmem x).trans ((hcmem x).trans ((hbmem x).trans (hamem x)))

/-- Settles O59: the entry leaves `s.pc` and the PSR of `s` on the stack, `reti` pops them, and the slot commits them. -/
theorem interruptReturns : Obligations.InterruptReturns := by
  unfold Obligations.InterruptReturns
  intro s t src hp ht
  obtain ⟨-, rfl⟩ := enterInterrupt_next ht
  refine ⟨_, _, exec_pop (fun _ => rfl) (executes_of_none rfl hp) rfl rfl,
    exec_done (executes_iff.2 ⟨slotCheck_filler _, nofun⟩) rfl, ?_⟩
  obtain ⟨set1, set2, pc, pend, cregs, psr, psr2, epc, hwstack, mulhi, intpend, dmem, imem, copLog, platform, env⟩ := s
  obtain rfl : pend = none := hp
  rfl

/-! ### Coprocessors -/

section Coprocessor
variable {i : Instr} {n : CopNum}

theorem sends_of {op : State → CopOp} (h : ∀ s : State, ruleOf s.mulhi i s.opened = copSend n (op s) s.opened) :
    Sends i n op := by
  refine fun s he => ⟨fun ha => ⟨_, exec_done he ((h s).trans (copSend_attached (s := s.opened) ha)), ?_⟩,
    fun ha => exec_refuse he ((h s).trans (cop_unattached (s := s.opened) (d := 0#5) (r := 0#5) ha).1)⟩
  exact ⟨by simp [State.issue], fun r => by simp [State.issue], fun k => by simp [State.issue, State.creg],
    restSame_close rfl rfl rfl ⟨rfl, rfl, rfl, rfl, rfl, rfl, rfl⟩⟩

theorem receives_of {d r : Reg} (h : ∀ latch, ruleOf latch i = copReceive n r d) : Receives i n d r := by
  refine fun s he => ⟨fun ha => ?_, fun ha => exec_refuse he
    ((congrFun (h _) _).trans (cop_unattached (s := s.opened) (op := .exec n 0#24) ha).2)⟩
  refine ⟨_, Config.copRead s.copLog n r, exec_done he ((congrFun (h _) _).trans (copReceive_attached (s := s.opened) ha)),
    fun q => ?_, by simp [State.issue], fun k => by simp [State.issue, State.creg], ?_⟩
  · rw [State.close_set1, State.close_set2]
    exact ⟨State.setReg_set1 s.opened d q _, State.setReg_set2 s.opened d q _⟩
  · have hrest := restSame_close (s := s) (u := (s.opened.setReg d (Config.copRead s.copLog n r)).issue (.read n r))
    simpa [State.issue, SameSpecial] using hrest

end Coprocessor

theorem sends_movdtcRule {i : Instr} {n : CopNum} {r a : Reg} (h : ∀ latch, ruleOf latch i = movdtcRule n r a) :
    Sends i n fun s => .write n r (readReg s a) :=
  sends_of fun s => by simp only [h, movdtcRule, reg_eq_readReg, readReg_opened]

theorem sends_movctcRule {i : Instr} {n : CopNum} {a : Reg} (h : ∀ latch, ruleOf latch i = movctcRule n a) :
    Sends i n fun s => .write n 0#5 (readReg s a) :=
  sends_of fun s => by simp only [h, movctcRule, reg_eq_readReg, readReg_opened]

/-- Settles O60. -/
theorem coprocessorTransfers : Obligations.CoprocessorTransfers := by
  unfold Obligations.CoprocessorTransfers
  exact ⟨fun _ _ => sends_of fun _ => rfl,
    fun _ _ _ => sends_movdtcRule fun _ => rfl, fun _ _ _ _ _ => sends_movdtcRule fun _ => rfl,
    fun _ _ _ => sends_movdtcRule fun _ => rfl,
    fun _ _ => sends_movctcRule fun _ => rfl, fun _ _ _ _ => sends_movctcRule fun _ => rfl,
    fun _ _ => sends_movctcRule fun _ => rfl,
    fun _ _ _ => receives_of fun _ => rfl, fun _ _ _ _ _ => receives_of fun _ => rfl,
    fun _ _ _ => receives_of fun _ => rfl,
    fun _ _ => receives_of fun _ => rfl, fun _ _ _ _ => receives_of fun _ => rfl, fun _ _ => receives_of fun _ => rfl⟩

end Sys2Proof.Machine
end
